-- ==== Sys2Proof/Word.lean ====
section
/-!
DEFINITION. The word types of the Lahild G9 and the plain records that name parts of the device:
who a completion is for, a mailbox message, a spawn request, a collective packet, Grexa's settings.
Types only; everything that computes stands in Decode.lean and under Machine/.
-/

namespace Sys2Proof

/-- A scalar register's contents, a virtual address, a tail (R67, R300). -/
abbrev Word := BitVec 64

/-- The unit of memory, little-endian throughout (R5). -/
abbrev Byte := BitVec 8

/-- A five-bit register field (R16, R17). -/
abbrev Reg := BitVec 5

/-- A pod physical address (R297), reached from a 58-bit value by toNat. -/
abbrev Pa := Nat

/-- A global core index: package x 1024 + cluster x 8 + core (R11, R298). -/
abbrev CoreId := Nat

/-- One occupancy of a slot: completions, wakes and messages carry its generation tag (R195). -/
structure Who where
  core : CoreId
  slot : Nat
  gen  : Nat
  deriving DecidableEq, Repr

/-- What a coroutine's request carries besides what it does: the tenant for which it acts (R340), the number of a posted write, and the
numbers of the posted writes that must be acknowledged before a release is sent (R264). -/
structure Req where
  tenant : BitVec 6
  seq    : Nat
  after  : List Nat
  deriving DecidableEq, Repr

/-- What a load of a future carries: the address as the program gave it, and the tenant for which it acts (R101, R340). -/
structure LoadReq where
  ea     : Word
  tenant : BitVec 6
  deriving DecidableEq, Repr

/-- What a store of a future carries: the value, and what every request does (R101, R264). -/
structure StoreReq where
  val : Word
  req : Req
  deriving DecidableEq, Repr

/-- The answer to a posted write: its number, and whether its home has performed it (R264). -/
structure Ack where
  seq : Nat
  ok  : Bool
  deriving DecidableEq, Repr

/-- A kernel MMIO register as something outside the cores reaches it: through the virtual function of a tenant, or as Grexa or
physical function 0 (R299, R332). -/
structure RegPlace where
  vf : Option (BitVec 6)
  pa : Pa
  deriving DecidableEq, Repr

/-- A place in the spaces of a function: BAR0, BAR1, BAR2, or 3 for physical function 0 (R332). -/
structure BarPlace where
  bar : BitVec 2
  off : BitVec 36
  deriving DecidableEq, Repr

/-- Who sends a token operation: a coroutine, or a unit of a package that acts for a tenant, with the CID that an error
record names (R225, R340, R368, R380). -/
inductive Sender where
  | coroutine (who : Who) (req : Req)
  | unit (pkg : Nat) (tenant : BitVec 6) (cid : BitVec 32)
  /-- The host, through a register of the tenant's virtual function (R333, R335). -/
  | host (pkg : Nat) (tenant : BitVec 6)
  deriving DecidableEq, Repr

/-- A 64-byte mailbox message with the kind, slot field and sender that MRECV reports (R219). -/
structure Msg where
  kind   : Nat
  slot   : Nat
  sender : BitVec 32
  data   : BitVec 512
  deriving DecidableEq, Repr

/-- The fields of a T32R tail and its head that a vector major leaves to its form (R17, R115). -/
structure V32 where
  x      : BitVec 3
  d      : Reg
  a      : Reg
  b      : Reg
  c      : Reg
  masked : Bool
  mr     : BitVec 3
  y      : BitVec 7
  deriving DecidableEq, Repr

/-- A request to create a child coroutine, as SPAWN sends it (R212 to R214). -/
structure SpawnReq where
  parent : Who
  reg    : Reg
  kind   : Nat
  cid    : BitVec 32
  target : Word
  pc     : Word
  s1     : Word
  s2     : Word
  stage  : BitVec 4
  vtype  : BitVec 6
  cls    : BitVec 2
  ceil   : BitVec 2
  asid   : BitVec 14
  tenant : BitVec 6
  grant  : Bool
  /-- The parent's posted writes that are acknowledged before the child is created (R264). -/
  after  : List Nat
  /-- The banks that a SPAWN into another package probes first, and whether a probed package has failed or lost a write (R266). -/
  probes : List (Nat × Nat)
  failed : Bool
  deriving DecidableEq, Repr

/-- A collective packet (R277, R278): its tag with the element offset and how many packets make up the contribution, its sender and tenant,
the sender's header (form, type, operator, length) and its data of up to 256 bytes. -/
structure Packet where
  table : Word
  seq   : BitVec 16
  src   : Nat
  off   : Nat
  total : Nat
  sender : Who
  tenant : BitVec 6
  kind  : Nat
  form  : Nat
  t     : BitVec 4
  op    : BitVec 3
  len   : Nat
  count : Nat
  first : Nat
  bad   : Bool
  elems : List (Nat × Nat)
  deriving DecidableEq, Repr

/-- One tenant's configuration as Grexa sets it (R311). -/
structure TenantCfg where
  granw    : Bool
  classmax : BitVec 2
  clset    : BitVec 128
  pbase    : BitVec 12
  pcount   : BitVec 13
  windows  : List (Nat × Nat)
  vectors  : List Nat
  plimit   : Nat
  asids    : List (BitVec 14 × Word)
  zero     : List (Nat × Nat)
  /-- Space that Grexa sets aside for its own lists: near and far runs of memory, deep runs of flash (R349, R354). -/
  near     : List (Nat × Nat)
  far      : List (Nat × Nat)
  deep     : List (Nat × Nat)
  /-- Where the package's ASID table lies, where Grexa sets it (R303), and pairs of a source package and tenant that map to this tenant
  (R340). -/
  table    : Option Word
  sources  : List (Nat × BitVec 6)
  deriving DecidableEq, Repr

/-- What Grexa loads into a cluster that changes hands (R328 step 5). -/
structure ClusterLoad where
  ctxbase : List Word
  l2cfg   : Word
  swsave  : Word
  marbw   : Word
  deriving DecidableEq, Repr

/-- A Grexa image in flash: its bytes, its signature and its security version (R374). -/
structure Image where
  bytes : List Byte
  sig   : BitVec 512
  svn   : Nat
  deriving DecidableEq, Repr

end Sys2Proof
end

