-- ==== Sys2Proof/Syntax.lean ====
section
/-!
DEFINITION. The operations of the Lahild G9: one constructor for each row of spec/opcode_table.json.
The first 237 are the instructions that a coroutine issues (R77 to R80), with the fields their encodings give them;
the other 107 are the operations and events of the other agents (95_whplaceeach_step_holds.md), with what names the one meant.
-/

namespace Sys2Proof

/-- An operation of the device; the docstring of each constructor names its row's rule. -/
inductive Instr where
  /-- NOP (R111). -/
  | nop
  /-- YIELD (R205). -/
  | yield
  /-- EXIT (R215). -/
  | exit (d : Reg)
  /-- ERET (R110). -/
  | eret
  /-- BRK (R109). -/
  | brk
  /-- SNAP (R111). -/
  | snap
  /-- CSRR (R108). -/
  | csrr (d : Reg) (csr : BitVec 11)
  /-- CSRW (R108). -/
  | csrw (d a : Reg) (csr : BitVec 11)
  /-- CSRS (R108). -/
  | csrs (d a : Reg) (csr : BitVec 11)
  /-- CSRC (R108). -/
  | csrc (d a : Reg) (csr : BitVec 11)
  /-- TRAP (R109). -/
  | trap (code : BitVec 16)
  /-- ADD (R86). -/
  | add (d a b : Reg)
  /-- SUB (R86). -/
  | sub (d a b : Reg)
  /-- MUL (R86). -/
  | mul (d a b : Reg)
  /-- MULH (R86). -/
  | mulh (d a b : Reg)
  /-- MULHN (R86). -/
  | mulhn (d a b : Reg)
  /-- DIV (R86). -/
  | div (d a b : Reg)
  /-- DIVN (R86). -/
  | divn (d a b : Reg)
  /-- REM (R86). -/
  | rem (d a b : Reg)
  /-- REMN (R86). -/
  | remn (d a b : Reg)
  /-- AND (R86). -/
  | and (d a b : Reg)
  /-- OR (R86). -/
  | or (d a b : Reg)
  /-- XOR (R86). -/
  | xor (d a b : Reg)
  /-- ANDN (R86). -/
  | andn (d a b : Reg)
  /-- SHL (R86). -/
  | shl (d a b : Reg)
  /-- SHR (R86). -/
  | shr (d a b : Reg)
  /-- SRA (R86). -/
  | sra (d a b : Reg)
  /-- ROL (R86). -/
  | rol (d a b : Reg)
  /-- MIN (R86). -/
  | min (d a b : Reg)
  /-- MAX (R86). -/
  | max (d a b : Reg)
  /-- MINN (R86). -/
  | minn (d a b : Reg)
  /-- MAXN (R86). -/
  | maxn (d a b : Reg)
  /-- SLT (R86). -/
  | slt (d a b : Reg)
  /-- SLTN (R86). -/
  | sltn (d a b : Reg)
  /-- SEQ (R86). -/
  | seq (d a b : Reg)
  /-- CLZ (R86). -/
  | clz (d a : Reg)
  /-- CTZ (R86). -/
  | ctz (d a : Reg)
  /-- POPC (R86). -/
  | popc (d a : Reg)
  /-- ADDI (R87). -/
  | addi (d a : Reg) (imm : BitVec 27)
  /-- ANDI (R87). -/
  | andi (d a : Reg) (imm : BitVec 27)
  /-- ORI (R87). -/
  | ori (d a : Reg) (imm : BitVec 27)
  /-- XORI (R87). -/
  | xori (d a : Reg) (imm : BitVec 27)
  /-- SLTI (R87). -/
  | slti (d a : Reg) (imm : BitVec 27)
  /-- SHLI (R87). -/
  | shli (d a : Reg) (imm : BitVec 27)
  /-- SHRI (R87). -/
  | shri (d a : Reg) (imm : BitVec 27)
  /-- SRAI (R87). -/
  | srai (d a : Reg) (imm : BitVec 27)
  /-- LI_W (R88). -/
  | liW (d : Reg) (imm : BitVec 32)
  /-- LI_D (R88). -/
  | liD (d : Reg) (imm : Word)
  /-- SEL (R89). -/
  | sel (d a b c : Reg)
  /-- FADD (R91). -/
  | fadd (dbl : Bool) (d a b : Reg)
  /-- FSUB (R91). -/
  | fsub (dbl : Bool) (d a b : Reg)
  /-- FMUL (R91). -/
  | fmul (dbl : Bool) (d a b : Reg)
  /-- FDIV (R91). -/
  | fdiv (dbl : Bool) (d a b : Reg)
  /-- FSQRT (R91). -/
  | fsqrt (dbl : Bool) (d a : Reg)
  /-- FMIN (R91). -/
  | fmin (dbl : Bool) (d a b : Reg)
  /-- FMAX (R91). -/
  | fmax (dbl : Bool) (d a b : Reg)
  /-- FEQ (R91). -/
  | feq (dbl : Bool) (d a b : Reg)
  /-- FLT (R91). -/
  | flt (dbl : Bool) (d a b : Reg)
  /-- FLE (R91). -/
  | fle (dbl : Bool) (d a b : Reg)
  /-- FCVTIF (R91). -/
  | fcvtif (dbl : Bool) (d a : Reg)
  /-- FCVTFI (R91). -/
  | fcvtfi (dbl : Bool) (d a : Reg)
  /-- FCLASS (R92). -/
  | fclass (dbl : Bool) (d a : Reg)
  /-- FFMA (R93). -/
  | ffma (d a b c : Reg) (y : BitVec 7)
  /-- FFMS (R93). -/
  | ffms (d a b c : Reg) (y : BitVec 7)
  /-- FNMA (R93). -/
  | fnma (d a b c : Reg) (y : BitVec 7)
  /-- LDB (R94). -/
  | ldb (d a : Reg) (imm : BitVec 27)
  /-- LDH (R94). -/
  | ldh (d a : Reg) (imm : BitVec 27)
  /-- LDW (R94). -/
  | ldw (d a : Reg) (imm : BitVec 27)
  /-- LDD (R94). -/
  | ldd (d a : Reg) (imm : BitVec 27)
  /-- LDNB (R94). -/
  | ldnb (d a : Reg) (imm : BitVec 27)
  /-- LDNH (R94). -/
  | ldnh (d a : Reg) (imm : BitVec 27)
  /-- LDNW (R94). -/
  | ldnw (d a : Reg) (imm : BitVec 27)
  /-- STB (R94). -/
  | stb (d a : Reg) (imm : BitVec 27)
  /-- STH (R94). -/
  | sth (d a : Reg) (imm : BitVec 27)
  /-- STW (R94). -/
  | stw (d a : Reg) (imm : BitVec 27)
  /-- STD (R94). -/
  | std (d a : Reg) (imm : BitVec 27)
  /-- AADD (R98). -/
  | aadd (dbl : Bool) (d a b : Reg) (scope : BitVec 3)
  /-- AAND (R98). -/
  | aand (dbl : Bool) (d a b : Reg) (scope : BitVec 3)
  /-- AOR (R98). -/
  | aor (dbl : Bool) (d a b : Reg) (scope : BitVec 3)
  /-- AXOR (R98). -/
  | axor (dbl : Bool) (d a b : Reg) (scope : BitVec 3)
  /-- AMIN (R98). -/
  | amin (dbl : Bool) (d a b : Reg) (scope : BitVec 3)
  /-- AMAX (R98). -/
  | amax (dbl : Bool) (d a b : Reg) (scope : BitVec 3)
  /-- AMINN (R98). -/
  | aminn (dbl : Bool) (d a b : Reg) (scope : BitVec 3)
  /-- AMAXN (R98). -/
  | amaxn (dbl : Bool) (d a b : Reg) (scope : BitVec 3)
  /-- ASWP (R98). -/
  | aswp (dbl : Bool) (d a b : Reg) (scope : BitVec 3)
  /-- ACAS (R98). -/
  | acas (dbl : Bool) (d a b c : Reg) (scope : BitVec 3)
  /-- LDF (R101). -/
  | ldf (d a : Reg) (imm : BitVec 27)
  /-- STF (R101). -/
  | stf (d a : Reg) (imm : BitVec 27)
  /-- BEQ (R102). -/
  | beq (a b : Reg) (off : BitVec 22)
  /-- BNE (R102). -/
  | bne (a b : Reg) (off : BitVec 22)
  /-- BLT (R102). -/
  | blt (a b : Reg) (off : BitVec 22)
  /-- BGE (R102). -/
  | bge (a b : Reg) (off : BitVec 22)
  /-- BLTN (R102). -/
  | bltn (a b : Reg) (off : BitVec 22)
  /-- BGEN (R102). -/
  | bgen (a b : Reg) (off : BitVec 22)
  /-- J (R103). -/
  | j (imm : BitVec 27)
  /-- JAL (R103). -/
  | jal (d : Reg) (imm : BitVec 27)
  /-- JR (R103). -/
  | jr (d a : Reg) (imm : BitVec 27)
  /-- LOOP (R105). -/
  | loop (x : BitVec 3) (d p st : Reg) (len : BitVec 6)
  /-- FENCE_CLUSTER (R107). -/
  | fenceCluster
  /-- FENCE_PACKAGE (R107). -/
  | fencePackage
  /-- FENCE_POD (R107). -/
  | fencePod
  /-- FENCET (R107). -/
  | fencet (d : Reg)
  /-- SPAWN (R212). -/
  | spawn (d a b c e : Reg) (y : BitVec 7)
  /-- AWAIT (R210). -/
  | await (d : Reg) (live : Word)
  /-- AWAITW (R210). -/
  | awaitw (d : Reg) (live : Word)
  /-- AWAITG (R210). -/
  | awaitg (d : Reg) (live : Word)
  /-- AWAITB (R210). -/
  | awaitb (n : Reg) (live : Word)
  /-- AWAITC (R210). -/
  | awaitc (x : BitVec 3) (d : Reg) (live : Word)
  /-- TARM (R226). -/
  | tarm (a b : Reg)
  /-- TSIG (R226). -/
  | tsig (a b : Reg)
  /-- THW (R226). -/
  | thw (a b : Reg)
  /-- TPOLL (R226). -/
  | tpoll (d a : Reg)
  /-- TARMC (R226). -/
  | tarmc (a b : Reg)
  /-- TSIGC (R227). -/
  | tsigc (a b : Reg)
  /-- TPOLLC (R226). -/
  | tpollc (d a : Reg)
  /-- MSEND (R219). -/
  | msend (d a b : Reg)
  /-- MRECV (R219). -/
  | mrecv (d a : Reg)
  /-- MHAND (R219). -/
  | mhand (a : Reg)
  /-- PARK (R342). -/
  | park (d : Reg) (live : Word)
  /-- BALLOC (R354). -/
  | balloc (d : Reg)
  /-- BFREE (R354). -/
  | bfree (a : Reg)
  /-- CPY_MEM (R243). -/
  | cpyMem (d a : Reg)
  /-- CPY_VEC (R243). -/
  | cpyVec (d a : Reg)
  /-- CPYB (R244). -/
  | cpyb (d a : Reg) (masked : Bool) (mr : BitVec 3)
  /-- CPYVL (R243). -/
  | cpyvl (d a b : Reg) (n : BitVec 3)
  /-- CPYVS (R243). -/
  | cpyvs (d a b : Reg) (n : BitVec 3)
  /-- CPYRR (R245). -/
  | cpyrr (d a b c : Reg) (n : BitVec 3)
  /-- CPYVG (R245). -/
  | cpyvg (d a b c : Reg)
  /-- CSEAL (R246). -/
  | cseal
  /-- XBSWAP (R281). -/
  | xbswap (d a b c : Reg) (p : BitVec 6) (y : BitVec 7)
  /-- SETVL (R112). -/
  | setvl (d a : Reg) (dc : BitVec 2) (t : BitVec 4)
  /-- SETVLHW (R114). -/
  | setvlhw (d a b : Reg) (dc : BitVec 2) (t : BitVec 4)
  /-- VADD (R120). -/
  | vadd (o : V32)
  /-- VSUB (R120). -/
  | vsub (o : V32)
  /-- VMUL (R120). -/
  | vmul (o : V32)
  /-- VMULH (R120). -/
  | vmulh (o : V32)
  /-- VDIV (R120). -/
  | vdiv (o : V32)
  /-- VREM (R120). -/
  | vrem (o : V32)
  /-- VAND (R120). -/
  | vand (o : V32)
  /-- VOR (R120). -/
  | vor (o : V32)
  /-- VXOR (R120). -/
  | vxor (o : V32)
  /-- VSHL (R120). -/
  | vshl (o : V32)
  /-- VSHR (R120). -/
  | vshr (o : V32)
  /-- VSRA (R120). -/
  | vsra (o : V32)
  /-- VMIN (R120). -/
  | vmin (o : V32)
  /-- VMAX (R120). -/
  | vmax (o : V32)
  /-- VSADD (R120). -/
  | vsadd (o : V32)
  /-- VSSUB (R120). -/
  | vssub (o : V32)
  /-- VFADD (R121). -/
  | vfadd (o : V32)
  /-- VFSUB (R121). -/
  | vfsub (o : V32)
  /-- VFMUL (R121). -/
  | vfmul (o : V32)
  /-- VFDIV (R121). -/
  | vfdiv (o : V32)
  /-- VFSQRT (R121). -/
  | vfsqrt (o : V32)
  /-- VFMIN (R121). -/
  | vfmin (o : V32)
  /-- VFMAX (R121). -/
  | vfmax (o : V32)
  /-- VFABS (R121). -/
  | vfabs (o : V32)
  /-- VFFMA (R121). -/
  | vffma (o : V32)
  /-- VFFMS (R121). -/
  | vffms (o : V32)
  /-- VFNMA (R121). -/
  | vfnma (o : V32)
  /-- VFRCP (R56). -/
  | vfrcp (o : V32)
  /-- VFRSQ (R56). -/
  | vfrsq (o : V32)
  /-- VFRCPS (R58). -/
  | vfrcps (o : V32)
  /-- VFRSQS (R58). -/
  | vfrsqs (o : V32)
  /-- VFEXP2 (R121). -/
  | vfexp2 (o : V32)
  /-- VCVT (R123). -/
  | vcvt (o : V32)
  /-- VCVTS (R123). -/
  | vcvts (o : V32)
  /-- VQBLK (R124). -/
  | vqblk (o : V32)
  /-- VEQ (R125). -/
  | veq (o : V32)
  /-- VNE (R125). -/
  | vne (o : V32)
  /-- VLT (R125). -/
  | vlt (o : V32)
  /-- VLE (R125). -/
  | vle (o : V32)
  /-- VGT (R125). -/
  | vgt (o : V32)
  /-- VGE (R125). -/
  | vge (o : V32)
  /-- VFEQ (R125). -/
  | vfeq (o : V32)
  /-- VFLT (R125). -/
  | vflt (o : V32)
  /-- VFLE (R125). -/
  | vfle (o : V32)
  /-- VFUNORD (R125). -/
  | vfunord (o : V32)
  /-- VMV (R126). -/
  | vmv (o : V32)
  /-- VMVS (R126). -/
  | vmvs (o : V32)
  /-- VMVX (R126). -/
  | vmvx (o : V32)
  /-- VMERGE (R126). -/
  | vmerge (o : V32)
  /-- VIDX (R126). -/
  | vidx (o : V32)
  /-- VSOW (R126). -/
  | vsow (o : V32)
  /-- VREDSUM (R59). -/
  | vredsum (o : V32)
  /-- VREDOSUM (R60). -/
  | vredosum (o : V32)
  /-- VREDMIN (R127). -/
  | vredmin (o : V32)
  /-- VREDMAX (R127). -/
  | vredmax (o : V32)
  /-- VREDAND (R127). -/
  | vredand (o : V32)
  /-- VREDOR (R127). -/
  | vredor (o : V32)
  /-- VSCANSUM (R61). -/
  | vscansum (o : V32)
  /-- VSCANMIN (R61). -/
  | vscanmin (o : V32)
  /-- VSCANMAX (R61). -/
  | vscanmax (o : V32)
  /-- VGATHER (R128). -/
  | vgather (o : V32)
  /-- VSLIDEUP (R128). -/
  | vslideup (o : V32)
  /-- VSLIDEDN (R128). -/
  | vslidedn (o : V32)
  /-- VCOMPRESS (R129). -/
  | vcompress (o : V32)
  /-- VCIDX (R129). -/
  | vcidx (o : V32)
  /-- MAND (R130). -/
  | mand (d a b : Reg)
  /-- MOR (R130). -/
  | mor (d a b : Reg)
  /-- MXOR (R130). -/
  | mxor (d a b : Reg)
  /-- MANDN (R130). -/
  | mandn (d a b : Reg)
  /-- MNOT (R130). -/
  | mnot (d a : Reg)
  /-- MPOPC (R130). -/
  | mpopc (d a : Reg)
  /-- MFIRST (R130). -/
  | mfirst (d a : Reg)
  /-- MFROMV (R130). -/
  | mfromv (d a : Reg)
  /-- MSETVL (R130). -/
  | msetvl (d a : Reg)
  /-- MCLR (R130). -/
  | mclr (d : Reg)
  /-- VLD (R133). -/
  | vld (o : V32)
  /-- VLDS (R133). -/
  | vlds (o : V32)
  /-- VLDX (R133). -/
  | vldx (o : V32)
  /-- VLDSEG (R133). -/
  | vldseg (o : V32) (n : BitVec 3)
  /-- VLDFF (R140). -/
  | vldff (o : V32)
  /-- VST (R133). -/
  | vst (o : V32)
  /-- VSTS (R133). -/
  | vsts (o : V32)
  /-- VSTX (R133). -/
  | vstx (o : V32)
  /-- VSTSEG (R133). -/
  | vstseg (o : V32) (n : BitVec 3)
  /-- VAADD (R145). -/
  | vaadd (o : V32)
  /-- VAMIN (R145). -/
  | vamin (o : V32)
  /-- VAMAX (R145). -/
  | vamax (o : V32)
  /-- VAOR (R145). -/
  | vaor (o : V32)
  /-- VXLATE (R150). -/
  | vxlate (o : V32)
  /-- VXLATEFF (R151). -/
  | vxlateff (o : V32)
  /-- VISSUE (R157). -/
  | vissue (a c : Reg) (fm : Bool) (masked : Bool) (mr : BitVec 3)
  /-- VALLRED (R273). -/
  | vallred (o : V32)
  /-- VREDSCAT (R273). -/
  | vredscat (o : V32)
  /-- VALLGATH (R273). -/
  | vallgath (o : V32)
  /-- VBCAST (R273). -/
  | vbcast (o : V32)
  /-- VALL2ALL (R278). -/
  | vall2all (o : V32)
  /-- GSET (R269). -/
  | gset (d a b : Reg)
  /-- GRANK (R269). -/
  | grank (d a : Reg)
  /-- GSIZE (R269). -/
  | gsize (d a : Reg)
  /-- MLOADW (R176). -/
  | mloadw (a : Reg) (t : BitVec 4)
  /-- MSTREAM (R178). -/
  | mstream (x : BitVec 3) (a b c : Reg)
  /-- MZERO (R179). -/
  | mzero (x : BitVec 3) (b c : Reg)
  /-- MREAD (R190). -/
  | mread (x : BitVec 3) (d b : Reg) (y : BitVec 7)
  /-- MREAD_PAIR (R191). -/
  | mreadPair (x : BitVec 3) (d b : Reg)
  /-- MWRITE (R179). -/
  | mwrite (x : BitVec 3) (a b : Reg) (t : BitVec 4)
  /-- RUN_AHEAD_FETCH (R15). -/
  | runAheadFetch (g : CoreId) (va : Word)
  /-- CHUNK_COMMIT (R247). -/
  | chunkCommit (g : CoreId)
  /-- SOLE_GRANT (R252). -/
  | soleGrant (pkg : Nat)
  /-- VECTOR_QUEUE_EXECUTE (R118). -/
  | vectorQueueExecute (g : CoreId)
  /-- QUANTUM_EXPIRY (R205). -/
  | quantumExpiry (g : CoreId)
  /-- CORE_RESUME (R206). -/
  | coreResume (g : CoreId)
  /-- CONTEXT_REFILL_DONE (R201). -/
  | contextRefillDone (g : CoreId)
  /-- PENDING_REGISTER_COMPLETION (R199). -/
  | pendingRegisterCompletion (who : Who) (r : Reg) (val : Word) (bad : Option Word)
  /-- REMOTE_LOAD_AT_HOME (R261). -/
  | remoteLoadAtHome (who : Who) (r : Reg) (segs : List (Nat × Nat × List Byte)) (signed : Bool) (ea : Word) (tenant : BitVec 6)
  /-- REMOTE_WRITE_AT_HOME (R262). -/
  | remoteWriteAtHome (who : Who) (pa : Pa) (bytes : Nat) (val : Nat) (q : Req)
  /-- AMO_AT_HOME (R99). -/
  | amoAtHome (who : Who) (r : Reg) (pa : Pa) (f : BitVec 6) (dbl : Bool) (op cmp ea : Word) (q : Req)
  /-- VAMO_UPDATE_AT_HOME (R145). -/
  | vamoUpdateAtHome (who : Who) (id : Nat) (pa : Pa) (f : BitVec 6) (t : BitVec 4) (val : Nat) (rm : BitVec 3) (seed sbase : Word) (idx : Nat) (q : Req)
  /-- TOKEN_SNAPSHOT (R230). -/
  | tokenSnapshot (who : Who)
  /-- TOKEN_REGISTRATION (R230). -/
  | tokenRegistration (who : Who)
  /-- TOKEN_ARM_AT_HOME (R225). -/
  | tokenArmAtHome (sender : Sender) (pa : Pa) (op : Word)
  /-- TOKEN_SIGNAL_AT_HOME (R225). -/
  | tokenSignalAtHome (sender : Sender) (pa : Pa) (amount : Int)
  /-- TOKEN_RAISE_AT_HOME (R225). -/
  | tokenRaiseAtHome (sender : Sender) (pa : Pa) (amount : Int)
  /-- WAITER_WAKE (R231). -/
  | waiterWake (who : Who)
  /-- TOKEN_REPOLL (R232). -/
  | tokenRepoll (who : Who)
  /-- FENCE_PROBE_ECHO (R107). -/
  | fenceProbeEcho (who : Who) (r : Reg) (pkg : Nat) (bit : Nat)
  /-- FABRIC_FAILURE_TIMEOUT (R339). -/
  | fabricFailureTimeout (n : Nat)
  /-- FUTURE_LOAD_AT_HOME (R234). -/
  | futureLoadAtHome (who : Who) (r : Reg) (pa : Pa) (q : LoadReq)
  /-- FUTURE_STORE_AT_HOME (R234). -/
  | futureStoreAtHome (who : Who) (pa : Pa) (q : StoreReq)
  /-- COPY_START (R238). -/
  | copyStart (cl : Nat) (id : Nat)
  /-- COPY_LOCK_TIMEOUT (R239). -/
  | copyLockTimeout (g : CoreId)
  /-- COPY_FAULT_END (R240). -/
  | copyFaultEnd (cl : Nat) (id : Nat)
  /-- COPY_COMPLETION (R241). -/
  | copyCompletion (cl : Nat) (id : Nat)
  /-- CLIP_MESSAGE_RETRY (R241). -/
  | clipMessageRetry (cl : Nat) (id : Nat)
  /-- ELEMENT_GROUP_ARRIVAL (R243). -/
  | elementGroupArrival (cl : Nat) (id : Nat) (grp : Nat)
  /-- REGISTER_COPY_DELIVERY (R245). -/
  | registerCopyDelivery (cl : Nat) (id : Nat)
  /-- XBSWAP_RENDEZVOUS (R283). -/
  | xbswapRendezvous (cl : Nat) (id : Nat)
  /-- JOB_GRANT (R183). -/
  | jobGrant (cl : Nat)
  /-- PLANE_FILL_COMPLETE (R184). -/
  | planeFillComplete (cl : Nat)
  /-- JOB_START (R184). -/
  | jobStart (cl : Nat)
  /-- ROW_UPDATE (R184). -/
  | rowUpdate (cl : Nat)
  /-- JOB_END (R184). -/
  | jobEnd (cl : Nat)
  /-- ZERO_WRITE_ROW (R179). -/
  | zeroWriteRow (cl : Nat)
  /-- GRANARY_REFRESH (R185). -/
  | granaryRefresh (die : Nat) (bank : Nat)
  /-- COLLECTIVE_PACKET (R277). -/
  | collectivePacket (dst : BitVec 32) (p : Packet)
  /-- COLLECTIVE_RETRY (R277). -/
  | collectiveRetry (dst : BitVec 32) (p : Packet)
  /-- COLLECTIVE_MERGE (R276). -/
  | collectiveMerge (g : CoreId) (id : Nat)
  /-- MAILBOX_ARRIVAL (R220). -/
  | mailboxArrival (dst : BitVec 32) (m : Msg) (who : Who) (r : Reg) (tenant : BitVec 6)
  /-- SPAWN_REQUEST (R213). -/
  | spawnRequest (q : SpawnReq)
  /-- QUIESCENCE_WATCHDOG (R221). -/
  | quiescenceWatchdog (g : CoreId)
  /-- PAGE_WALK (R305). -/
  | pageWalk (g : CoreId) (asid : BitVec 14) (va : Word)
  /-- TLBINV_TENANT (R306). -/
  | tlbinvTenant (pkg : Nat) (t : BitVec 6) (pa : Pa)
  /-- TLBINV_GREXA (R306). -/
  | tlbinvGrexa (pkg : Nat) (pa : Pa)
  /-- TLBINV_COMPLETE (R307). -/
  | tlbinvComplete (pkg : Nat)
  /-- QDOOR (R315). -/
  | qdoor (pkg : Nat) (t : BitVec 6) (q : BitVec 4) (val : BitVec 32)
  /-- LAUNCH_TOKEN_FIRING (R316). -/
  | launchTokenFiring (pkg : Nat) (t : BitVec 6) (q : BitVec 4)
  /-- LAUNCH_ENTRY_READ (R319). -/
  | launchEntryRead (pkg : Nat) (t : BitVec 6) (q : BitVec 4)
  /-- AFTER_TOKEN_ELIGIBLE (R321). -/
  | afterTokenEligible (pkg : Nat) (t : BitVec 6) (q : BitVec 4)
  /-- INSTANCE_BIND (R323). -/
  | instanceBind (pkg : Nat) (t : BitVec 6)
  /-- SLOT_EVICT (R203). -/
  | slotEvict (g : CoreId) (slot : BitVec 8)
  /-- SLOT_RESTORE (R326). -/
  | slotRestore (g : CoreId) (slot : BitVec 8)
  /-- SLOT_RELEASE (R326). -/
  | slotRelease (g : CoreId) (slot : BitVec 8)
  /-- CTXBASE_WRITE (R326). -/
  | ctxbaseWrite (g : CoreId) (val : Word)
  /-- L2CFG_WRITE (R327). -/
  | l2cfgWrite (cl : Nat) (val : Word)
  /-- LAUNCH_QUEUE_CONFIG_WRITE (R314). -/
  | launchQueueConfigWrite (pkg : Nat) (t : BitVec 6) (q : BitVec 4) (off : BitVec 6) (val : Word)
  /-- FAULT_QUEUE_CONFIG_WRITE (R313). -/
  | faultQueueConfigWrite (pkg : Nat) (t : BitVec 6) (val : Word)
  /-- MMIO_REGISTER_WRITE (R299, R332). -/
  | mmioRegisterWrite (place : RegPlace) (val : Word)
  /-- TENANT_SWITCH (R328). -/
  | tenantSwitch (cl : Nat) (t : BitVec 6) (ld : ClusterLoad)
  /-- TENANT_SWITCH_ABANDON (R328). -/
  | tenantSwitchAbandon (cl : Nat)
  /-- TENANT_RESET (R311). -/
  | tenantReset (pkg : Nat) (t : BitVec 6)
  /-- HOST_BAR2_WRITE (R334). -/
  | hostBar2Write (pkg : Nat) (t : BitVec 6) (off : BitVec 36) (bytes : Nat) (val : Nat)
  /-- HOST_BAR2_READ (R334), and a read of the function's other spaces (R332). -/
  | hostBar2Read (pkg : Nat) (t : BitVec 6) (place : BarPlace) (bytes : Nat)
  /-- HOST_ATOMIC_OP (R334). -/
  | hostAtomicOp (pkg : Nat) (t : BitVec 6) (off : BitVec 36) (op : BitVec 2) (bytes : Nat) (val cmp : Word)
  /-- HSIGV (R333). -/
  | hsigv (pkg : Nat) (t : BitVec 6) (val : BitVec 32)
  /-- CXL_LINK_FAILURE (R337). -/
  | cxlLinkFailure (pkg : Nat) (port : BitVec 1)
  /-- CXL_WRITE_ACK_LOST (R337). -/
  | cxlWriteAckLost (pkg : Nat) (pa : Pa)
  /-- FABRIC_PORT_FAILURE (R338). -/
  | fabricPortFailure (pkg : Nat) (port : BitVec 7)
  /-- PARK_CLOCK_TICK (R348). -/
  | parkClockTick (pkg : Nat)
  /-- NEAR_DWELL_EXPIRY (R348). -/
  | nearDwellExpiry (pkg : Nat) (e : Nat)
  /-- FAR_DWELL_EXPIRY (R348). -/
  | farDwellExpiry (pkg : Nat) (e : Nat)
  /-- BLOCK_MOVE_REGISTRATION (R349). -/
  | blockMoveRegistration (pkg : Nat) (e : Nat)
  /-- BLOCK_MOVE_COMPLETION (R349). -/
  | blockMoveCompletion (pkg : Nat) (e : Nat)
  /-- CONTEXT_MOVE_COMPLETION (R349). -/
  | contextMoveCompletion (pkg : Nat) (e : Nat)
  /-- WAKE_WRITE (R350). -/
  | wakeWrite (pa : Pa) (val : Word)
  /-- PARK_RESUME (R351). -/
  | parkResume (pkg : Nat) (e : Nat)
  /-- PARK_WAIT_SLOT_PLACE (R351). -/
  | parkWaitSlotPlace (pkg : Nat) (t : BitVec 6)
  /-- FWREQ (R347). -/
  | fwreq (pkg : Nat) (t : BitVec 6) (pa : Pa)
  /-- GREXA_REFILL (R356). -/
  | grexaRefill (pkg : Nat)
  /-- GREXA_INSERT (R357). -/
  | grexaInsert (pkg : Nat)
  /-- GREXA_DROP (R357). -/
  | grexaDrop (pkg : Nat)
  /-- BLOG2_WRITE (R354). -/
  | blog2Write (pkg : Nat) (t : BitVec 6) (val : Word)
  /-- PATROL_SCRUB (R369). -/
  | patrolScrub (pa : Pa)
  /-- SNAPTRIG (R373). -/
  | snaptrig (pkg : Nat)
  /-- SNAPSHOT_LATCH (R372). -/
  | snapshotLatch (pkg : Nat)
  /-- CORE_RESET (R378). -/
  | coreReset (g : CoreId)
  /-- CLUSTER_RESET (R378). -/
  | clusterReset (cl : Nat)
  /-- DIE_RESET (R378). -/
  | dieReset (die : Nat)
  /-- WARM_MODULE_RESET (R378). -/
  | warmModuleReset (pkg : Nat)
  /-- COLD_MODULE_RESET (R378). -/
  | coldModuleReset (pkg : Nat)
  /-- ATTESTATION_REQUEST (R376). -/
  | attestationRequest (pkg : Nat) (tenant : BitVec 32) (nonce : BitVec 256)
  /-- THERMAL_THROTTLE (R377). -/
  | thermalThrottle (pkg : Nat)
  /-- THERMAL_SHUTDOWN (R377). -/
  | thermalShutdown (pkg : Nat)
  /-- POWER_CAP_SET (R377). -/
  | powerCapSet (pkg : Nat) (watts : Nat)
  /-- GREXA_IMAGE_STAGE (R379). -/
  | grexaImageStage (pkg : Nat) (im : Image)
  /-- ILLEGAL_INSTRUCTION (R83). -/
  | illegalInstruction (head : BitVec 16) (tail : Word)
  /-- GRANARY_REFRESH_END (R185). -/
  | granaryRefreshEnd (die : Nat) (bank : Nat)
  /-- SPILL_COMPLETE (R201). -/
  | spillComplete (g : CoreId)
  /-- POSTED_WRITE_ACKNOWLEDGED (R264). -/
  | postedWriteAcknowledged (who : Who) (pkg : Nat) (ack : Ack)
  /-- GREXA_REPLY_RETRY (R356). -/
  | grexaReplyRetry (pkg : Nat)
  /-- DISTRIBUTOR_REGISTRATION_RETRY (R380). -/
  | distributorRegistrationRetry (pkg : Nat) (t : BitVec 6) (q : BitVec 4)
  /-- DATA_PREFETCH (R309). -/
  | dataPrefetch (g : CoreId) (va : Word) (outcome : BitVec 2)
  /-- TENANT_CONFIGURATION (R311). -/
  | tenantConfiguration (pkg : Nat) (t : BitVec 6) (cfg : TenantCfg)
  /-- I3C_DYNAMIC_ADDRESS (R379). -/
  | i3cDynamicAddress (pkg : Nat) (addr : BitVec 7)
  deriving DecidableEq, Repr

end Sys2Proof
end

