-- ==== Sys2Proof/WellFormed.lean ====
section
/-!
DEFINITION. Which operand values an instruction may hold: the checks that are decided from the encoding alone
(R70's fields of three bits, R77, R80, R81 and each instruction's own table). What depends on vtype, vl or the mode is
checked by the meanings. For the events of other agents: which names (package, core, slot, address) exist.
-/

namespace Sys2Proof

/-- Element type code, Y[6:3] (R28). -/
abbrev V32.t (o : V32) : BitVec 4 := o.y.extractLsb' 3 4

/-- Rounding or operator code, Y[2:0] (R28, R81). -/
abbrev V32.rm (o : V32) : BitVec 3 := o.y.extractLsb' 0 3

namespace WellFormed

/-- MK = 0 with MR non-zero is a non-zero reserved field (R77). -/
def maskOk (o : V32) : Bool := o.masked || o.mr == 0#3

/-- VINT: form vv, vs or vi, an integer type, no rounding, C = 0 (R120). -/
def intArith (o : V32) : Bool :=
  maskOk o && o.x.toNat ≤ 2 && o.c == 0#5 && o.t.toNat ≤ 7 && o.rm == 0#3

/-- A floating type up to the code given and a rounding code that R46 assigns. -/
def fpTypes (top : Nat) (o : V32) : Bool :=
  maskOk o && 10 ≤ o.t.toNat && o.t.toNat ≤ top && o.rm.toNat ≤ 5

/-- VFP with two sources; only sums, differences and products accept c32 (R121, R122). -/
def fpArith (top : Nat) (o : V32) : Bool := fpTypes top o && o.x.toNat ≤ 2 && o.c == 0#5

/-- VFP with one source: X, B and C are 0 (R121). -/
def fpUnary (o : V32) : Bool := fpTypes 13 o && o.x == 0#3 && o.b == 0#5 && o.c == 0#5

/-- The fused forms: X = 0, C the addend (R121, R122). -/
def fpFma (o : V32) : Bool := fpTypes 14 o && o.x == 0#3

/-- VFRCPS and VFRSQS: X = 0 and C = 0 (R58, R121). -/
def fpStep (o : V32) : Bool := fpTypes 13 o && o.x == 0#3 && o.c == 0#5

/-- VCVT, VCVTS and VQBLK: any type but a80, X, B and C = 0 (R123, R124). -/
def convert (o : V32) : Bool :=
  maskOk o && o.x == 0#3 && o.b == 0#5 && o.c == 0#5 && o.t != 15#4 && o.rm.toNat ≤ 5

/-- VCMP: a mask destination, a type from lo to hi, no rounding (R125). -/
def compare (lo hi : Nat) (o : V32) : Bool :=
  maskOk o && o.x.toNat ≤ 2 && o.c == 0#5 && o.d.toNat < 8 && lo ≤ o.t.toNat && o.t.toNat ≤ hi && o.rm == 0#3

/-- VMOV but VSOW: X, C and Y are 0 (R126). -/
def rawMove (o : V32) : Bool := maskOk o && o.x == 0#3 && o.c == 0#5 && o.y == 0#7

/-- VRED: an initial value where X = 1, integer types without rounding, floating types up to top (R127). -/
def reduce (top : Nat) (o : V32) : Bool :=
  maskOk o && (o.x == 1#3 || (o.x == 0#3 && o.b == 0#5)) && o.c == 0#5 &&
    ((o.t.toNat ≤ 7 && o.rm == 0#3) || (10 ≤ o.t.toNat && o.t.toNat ≤ top && o.rm.toNat ≤ 5))

/-- VPERM: C and Y are 0 (R128, R129). -/
def permute (o : V32) : Bool := maskOk o && o.c == 0#5 && o.y == 0#7

/-- VLD and VST: X names the form, C and Y[2:0] are 0, any type but a80 (R131, R132). -/
def memory (form : Nat) (o : V32) : Bool :=
  maskOk o && o.x.toNat == form && o.c == 0#5 && o.t != 15#4 && o.rm == 0#3

/-- VAMO's types: 1 to 3, 5 to 7 and 10 to 13 (R144). -/
def atomicTypes (o : V32) : Bool :=
  maskOk o && o.x == 0#3 && [1, 2, 3, 5, 6, 7, 10, 11, 12, 13].contains o.t.toNat

/-- VXLATE: X names the form, C is a fault mask, Y is 0 (R149). -/
def translate (form : Nat) (o : V32) : Bool :=
  maskOk o && o.x.toNat == form && o.c.toNat < 8 && o.y == 0#7

/-- VALLRED and VREDSCAT: the operator with the types it accepts, B = 0 (R271). -/
def reduceCollective (o : V32) : Bool :=
  maskOk o && o.b == 0#5 &&
    ((o.rm == 0#3 && (o.t.toNat ≤ 7 || (10 ≤ o.t.toNat && o.t.toNat ≤ 14))) ||
     ((o.rm == 1#3 || o.rm == 2#3) && (o.t.toNat ≤ 7 || (10 ≤ o.t.toNat && o.t.toNat ≤ 13))) ||
     ((o.rm == 3#3 || o.rm == 4#3) && o.t.toNat ≤ 7))

/-- VALLGATH, VBCAST and VALL2ALL: any type but a80 and no operator (R271). -/
def moveCollective (o : V32) : Bool := maskOk o && o.rm == 0#3 && o.t != 15#4

end WellFormed

open WellFormed in
/-- The instruction may stand in a program, or the event names things that exist. -/
def Instr.wf : Instr → Bool
  | .nop => true
  | .yield => true
  | .exit _ => true
  | .eret => true
  | .brk => true
  | .snap => true
  | .csrr _ _ => true
  | .csrw _ _ _ => true
  | .csrs _ _ _ => true
  | .csrc _ _ _ => true
  | .trap _ => true
  | .add _ _ _ => true
  | .sub _ _ _ => true
  | .mul _ _ _ => true
  | .mulh _ _ _ => true
  | .mulhn _ _ _ => true
  | .div _ _ _ => true
  | .divn _ _ _ => true
  | .rem _ _ _ => true
  | .remn _ _ _ => true
  | .and _ _ _ => true
  | .or _ _ _ => true
  | .xor _ _ _ => true
  | .andn _ _ _ => true
  | .shl _ _ _ => true
  | .shr _ _ _ => true
  | .sra _ _ _ => true
  | .rol _ _ _ => true
  | .min _ _ _ => true
  | .max _ _ _ => true
  | .minn _ _ _ => true
  | .maxn _ _ _ => true
  | .slt _ _ _ => true
  | .sltn _ _ _ => true
  | .seq _ _ _ => true
  | .clz _ _ => true
  | .ctz _ _ => true
  | .popc _ _ => true
  | .addi _ _ _ => true
  | .andi _ _ _ => true
  | .ori _ _ _ => true
  | .xori _ _ _ => true
  | .slti _ _ _ => true
  | .shli _ _ imm => imm.extractLsb' 6 21 == 0#21
  | .shri _ _ imm => imm.extractLsb' 6 21 == 0#21
  | .srai _ _ imm => imm.extractLsb' 6 21 == 0#21
  | .liW _ _ => true
  | .liD _ _ => true
  | .sel _ _ _ _ => true
  | .fadd _ _ _ _ => true
  | .fsub _ _ _ _ => true
  | .fmul _ _ _ _ => true
  | .fdiv _ _ _ _ => true
  | .fsqrt _ _ _ => true
  | .fmin _ _ _ _ => true
  | .fmax _ _ _ _ => true
  | .feq _ _ _ _ => true
  | .flt _ _ _ _ => true
  | .fle _ _ _ _ => true
  | .fcvtif _ _ _ => true
  | .fcvtfi _ _ _ => true
  | .fclass _ _ _ => true
  | .ffma _ _ _ _ y => (y.extractLsb' 3 4 == 12#4 || y.extractLsb' 3 4 == 13#4) && (y.extractLsb' 0 3).toNat ≤ 5
  | .ffms _ _ _ _ y => (y.extractLsb' 3 4 == 12#4 || y.extractLsb' 3 4 == 13#4) && (y.extractLsb' 0 3).toNat ≤ 5
  | .fnma _ _ _ _ y => (y.extractLsb' 3 4 == 12#4 || y.extractLsb' 3 4 == 13#4) && (y.extractLsb' 0 3).toNat ≤ 5
  | .ldb _ _ _ => true
  | .ldh _ _ _ => true
  | .ldw _ _ _ => true
  | .ldd _ _ _ => true
  | .ldnb _ _ _ => true
  | .ldnh _ _ _ => true
  | .ldnw _ _ _ => true
  | .stb _ _ _ => true
  | .sth _ _ _ => true
  | .stw _ _ _ => true
  | .std _ _ _ => true
  | .aadd _ _ _ _ scope => 1 ≤ scope.toNat && scope.toNat ≤ 3
  | .aand _ _ _ _ scope => 1 ≤ scope.toNat && scope.toNat ≤ 3
  | .aor _ _ _ _ scope => 1 ≤ scope.toNat && scope.toNat ≤ 3
  | .axor _ _ _ _ scope => 1 ≤ scope.toNat && scope.toNat ≤ 3
  | .amin _ _ _ _ scope => 1 ≤ scope.toNat && scope.toNat ≤ 3
  | .amax _ _ _ _ scope => 1 ≤ scope.toNat && scope.toNat ≤ 3
  | .aminn _ _ _ _ scope => 1 ≤ scope.toNat && scope.toNat ≤ 3
  | .amaxn _ _ _ _ scope => 1 ≤ scope.toNat && scope.toNat ≤ 3
  | .aswp _ _ _ _ scope => 1 ≤ scope.toNat && scope.toNat ≤ 3
  | .acas _ _ _ _ _ scope => 1 ≤ scope.toNat && scope.toNat ≤ 3
  | .ldf _ _ _ => true
  | .stf _ _ _ => true
  | .beq _ _ _ => true
  | .bne _ _ _ => true
  | .blt _ _ _ => true
  | .bge _ _ _ => true
  | .bltn _ _ _ => true
  | .bgen _ _ _ => true
  | .j _ => true
  | .jal _ _ => true
  | .jr _ _ _ => true
  | .loop x d p st len => x.toNat ≤ 5 && d != 0#5 && d.toNat + x.toNat ≤ 31 && st.toNat + x.toNat ≤ 31 && 1 ≤ len.toNat && len.toNat ≤ 32 && !(d.toNat ≤ p.toNat && p.toNat ≤ d.toNat + x.toNat)
  | .fenceCluster => true
  | .fencePackage => true
  | .fencePod => true
  | .fencet _ => true
  | .spawn _ _ _ _ e y => (y.extractLsb' 0 3).toNat ≤ 4 && (e == 0#5 || y.extractLsb' 0 3 == 1#3)
  | .await d _ => d != 0#5
  | .awaitw d _ => d != 0#5
  | .awaitg d _ => d != 0#5
  | .awaitb n _ => n.toNat ≤ 15
  | .awaitc _ _ _ => true
  | .tarm _ _ => true
  | .tsig _ _ => true
  | .thw _ _ => true
  | .tpoll _ _ => true
  | .tarmc _ _ => true
  | .tsigc _ _ => true
  | .tpollc _ _ => true
  | .msend _ _ _ => true
  | .mrecv _ _ => true
  | .mhand _ => true
  | .park d _ => d != 0#5
  | .balloc _ => true
  | .bfree _ => true
  | .cpyMem _ _ => true
  | .cpyVec _ _ => true
  | .cpyb _ _ masked mr => masked || mr == 0#3
  | .cpyvl _ _ _ _ => true
  | .cpyvs _ _ _ _ => true
  | .cpyrr _ _ _ _ _ => true
  | .cpyvg _ _ _ c => c.toNat < 8
  | .cseal => true
  | .xbswap _ _ _ c _ y => c.toNat < 8 && (y.extractLsb' 0 4).toNat ≤ 11 && (y.extractLsb' 4 3).toNat ≤ 4
  | .setvl _ _ dc t => dc != 3#2 && t != 15#4
  | .setvlhw _ _ _ dc t => dc != 3#2 && t != 15#4
  | .vadd o => intArith o
  | .vsub o => intArith o
  | .vmul o => intArith o
  | .vmulh o => intArith o
  | .vdiv o => intArith o
  | .vrem o => intArith o
  | .vand o => intArith o
  | .vor o => intArith o
  | .vxor o => intArith o
  | .vshl o => intArith o
  | .vshr o => intArith o
  | .vsra o => intArith o
  | .vmin o => intArith o
  | .vmax o => intArith o
  | .vsadd o => intArith o
  | .vssub o => intArith o
  | .vfadd o => fpArith 14 o
  | .vfsub o => fpArith 14 o
  | .vfmul o => fpArith 14 o
  | .vfdiv o => fpArith 13 o
  | .vfsqrt o => fpUnary o
  | .vfmin o => fpArith 13 o
  | .vfmax o => fpArith 13 o
  | .vfabs o => fpUnary o
  | .vffma o => fpFma o
  | .vffms o => fpFma o
  | .vfnma o => fpFma o
  | .vfrcp o => fpUnary o
  | .vfrsq o => fpUnary o
  | .vfrcps o => fpStep o
  | .vfrsqs o => fpStep o
  | .vfexp2 o => fpUnary o
  | .vcvt o => convert o
  | .vcvts o => convert o
  | .vqblk o => convert o && o.t == 8#4 && o.d != 7#5
  | .veq o => compare 0 7 o
  | .vne o => compare 0 7 o
  | .vlt o => compare 0 7 o
  | .vle o => compare 0 7 o
  | .vgt o => compare 0 7 o
  | .vge o => compare 0 7 o
  | .vfeq o => compare 10 14 o
  | .vflt o => compare 10 13 o
  | .vfle o => compare 10 13 o
  | .vfunord o => compare 10 14 o
  | .vmv o => rawMove o && o.b == 0#5
  | .vmvs o => rawMove o && o.b == 0#5
  | .vmvx o => rawMove o && !o.masked
  | .vmerge o => rawMove o && o.masked
  | .vidx o => rawMove o && o.a == 0#5 && o.b == 0#5
  | .vsow o => maskOk o && o.x == 0#3 && o.c == 0#5 && o.a == 0#5 && o.b.toNat < 2 && !(o.b == 1#5 && o.y == 127#7)
  | .vredsum o => reduce 14 o
  | .vredosum o => reduce 14 o
  | .vredmin o => reduce 13 o
  | .vredmax o => reduce 13 o
  | .vredand o => reduce 7 o
  | .vredor o => reduce 7 o
  | .vscansum o => reduce 14 o
  | .vscanmin o => reduce 13 o
  | .vscanmax o => reduce 13 o
  | .vgather o => permute o && o.x == 0#3
  | .vslideup o => permute o && (o.x == 1#3 || o.x == 2#3)
  | .vslidedn o => permute o && (o.x == 1#3 || o.x == 2#3)
  | .vcompress o => permute o && o.x == 0#3 && o.b == 0#5
  | .vcidx o => permute o && o.x == 0#3 && o.b == 0#5 && o.a == 0#5
  | .mand d a b => d.toNat < 8 && a.toNat < 8 && b.toNat < 8
  | .mor d a b => d.toNat < 8 && a.toNat < 8 && b.toNat < 8
  | .mxor d a b => d.toNat < 8 && a.toNat < 8 && b.toNat < 8
  | .mandn d a b => d.toNat < 8 && a.toNat < 8 && b.toNat < 8
  | .mnot d a => d.toNat < 8 && a.toNat < 8
  | .mpopc _ a => a.toNat < 8
  | .mfirst _ a => a.toNat < 8
  | .mfromv d _ => d.toNat < 8
  | .msetvl d _ => d.toNat < 8
  | .mclr d => d.toNat < 8
  | .vld o => memory 0 o && o.b == 0#5
  | .vlds o => memory 1 o && o.t != 8#4
  | .vldx o => memory 2 o && o.t != 8#4
  | .vldseg o n => memory 3 o && o.t != 8#4 && o.b == 0#5 && n != 0#3
  | .vldff o => memory 4 o && o.b == 0#5
  | .vst o => memory 0 o && o.b == 0#5
  | .vsts o => memory 1 o && o.t != 8#4
  | .vstx o => memory 2 o && o.t != 8#4
  | .vstseg o n => memory 3 o && o.t != 8#4 && o.b == 0#5 && n != 0#3
  | .vaadd o => atomicTypes o && (o.rm == 0#3 || (10 ≤ o.t.toNat && o.rm.toNat ≤ 5))
  | .vamin o => atomicTypes o && o.rm == 0#3
  | .vamax o => atomicTypes o && o.rm == 0#3
  | .vaor o => atomicTypes o && o.rm == 0#3 && o.t.toNat < 8
  | .vxlate o => translate 0 o
  | .vxlateff o => translate 1 o
  | .vissue _ c fm masked mr => c.toNat < 8 && (fm || c == 0#5) && (masked || mr == 0#3) && !(fm && masked && c.toNat == mr.toNat)
  | .vallred o => reduceCollective o
  | .vredscat o => reduceCollective o
  | .vallgath o => moveCollective o && o.b == 0#5
  | .vbcast o => moveCollective o && o.b == 0#5
  | .vall2all o => moveCollective o && o.masked
  | .gset d _ _ => d.toNat < 8
  | .grank _ a => a.toNat < 8
  | .gsize _ a => a.toNat < 8
  | .mloadw _ t => [8, 9, 10, 11, 12, 14].contains t.toNat
  | .mstream _ _ _ _ => true
  | .mzero _ _ _ => true
  | .mread _ _ _ y => 9 ≤ (y.extractLsb' 3 4).toNat && (y.extractLsb' 0 3).toNat ≤ 5 && (y.extractLsb' 3 4 != 15#4 || y.extractLsb' 0 3 == 0#3)
  | .mreadPair _ _ _ => true
  | .mwrite _ _ _ t => 10 ≤ t.toNat
  | .runAheadFetch g _ => g < 4194304
  | .chunkCommit g => g < 4194304
  | .soleGrant pkg => pkg < 4096
  | .vectorQueueExecute g => g < 4194304
  | .quantumExpiry g => g < 4194304
  | .coreResume g => g < 4194304
  | .contextRefillDone g => g < 4194304
  | .pendingRegisterCompletion who _ _ _ => who.core < 4194304 && who.slot < 256
  | .remoteLoadAtHome who _ _ _ _ _ => who.core < 4194304 && who.slot < 256
  | .remoteWriteAtHome who pa _ _ _ => pa < 288230376151711744 && who.core < 4194304 && who.slot < 256
  | .amoAtHome who _ pa _ _ _ _ _ _ => pa < 288230376151711744 && who.core < 4194304 && who.slot < 256
  | .vamoUpdateAtHome who _ pa _ _ _ _ _ _ _ _ => pa < 288230376151711744 && who.core < 4194304 && who.slot < 256
  | .tokenSnapshot who => who.core < 4194304 && who.slot < 256
  | .tokenRegistration who => who.core < 4194304 && who.slot < 256
  | .tokenArmAtHome _ pa _ => pa < 288230376151711744
  | .tokenSignalAtHome _ pa _ => pa < 288230376151711744
  | .tokenRaiseAtHome _ pa _ => pa < 288230376151711744
  | .waiterWake who => who.core < 4194304 && who.slot < 256
  | .tokenRepoll who => who.core < 4194304 && who.slot < 256
  | .fenceProbeEcho who _ pkg _ => pkg < 4096 && who.core < 4194304 && who.slot < 256
  | .fabricFailureTimeout _ => true
  | .futureLoadAtHome who _ pa _ => pa < 288230376151711744 && who.core < 4194304 && who.slot < 256
  | .futureStoreAtHome who pa _ => pa < 288230376151711744 && who.core < 4194304 && who.slot < 256
  | .copyStart cl _ => cl < 524288
  | .copyLockTimeout g => g < 4194304
  | .copyFaultEnd cl _ => cl < 524288
  | .copyCompletion cl _ => cl < 524288
  | .clipMessageRetry cl _ => cl < 524288
  | .elementGroupArrival cl _ grp => cl < 524288 && grp < 1024
  | .registerCopyDelivery cl _ => cl < 524288
  | .xbswapRendezvous cl _ => cl < 524288
  | .jobGrant cl => cl < 524288
  | .planeFillComplete cl => cl < 524288
  | .jobStart cl => cl < 524288
  | .rowUpdate cl => cl < 524288
  | .jobEnd cl => cl < 524288
  | .zeroWriteRow cl => cl < 524288
  | .granaryRefresh die bank => die < 16384 && bank < 512
  | .collectivePacket _ _ => true
  | .collectiveRetry _ _ => true
  | .collectiveMerge g _ => g < 4194304
  | .mailboxArrival _ _ who _ _ => who.core < 4194304 && who.slot < 256
  | .spawnRequest q => q.parent.core < 4194304 && q.kind ≤ 4
  | .quiescenceWatchdog g => g < 4194304
  | .pageWalk g _ _ => g < 4194304
  | .tlbinvTenant pkg _ pa => pkg < 4096 && pa < 288230376151711744
  | .tlbinvGrexa pkg pa => pkg < 4096 && pa < 288230376151711744
  | .tlbinvComplete pkg => pkg < 4096
  | .qdoor pkg _ _ _ => pkg < 4096
  | .launchTokenFiring pkg _ _ => pkg < 4096
  | .launchEntryRead pkg _ _ => pkg < 4096
  | .afterTokenEligible pkg _ _ => pkg < 4096
  | .instanceBind pkg _ => pkg < 4096
  | .slotEvict g _ => g < 4194304
  | .slotRestore g _ => g < 4194304
  | .slotRelease g _ => g < 4194304
  | .ctxbaseWrite g _ => g < 4194304
  | .l2cfgWrite cl _ => cl < 524288
  | .launchQueueConfigWrite pkg _ _ _ _ => pkg < 4096
  | .faultQueueConfigWrite pkg _ _ => pkg < 4096
  | .mmioRegisterWrite a _ => a.pa < 288230376151711744
  | .tenantSwitch cl _ _ => cl < 524288
  | .tenantSwitchAbandon cl => cl < 524288
  | .tenantReset pkg _ => pkg < 4096
  | .hostBar2Write pkg _ _ _ _ => pkg < 4096
  | .hostBar2Read pkg _ _ _ => pkg < 4096
  | .hostAtomicOp pkg _ _ _ _ _ _ => pkg < 4096
  | .hsigv pkg _ _ => pkg < 4096
  | .cxlLinkFailure pkg _ => pkg < 4096
  | .cxlWriteAckLost pkg pa => pkg < 4096 && pa < 288230376151711744
  | .fabricPortFailure pkg _ => pkg < 4096
  | .parkClockTick pkg => pkg < 4096
  | .nearDwellExpiry pkg e => pkg < 4096 && e < 65536
  | .farDwellExpiry pkg e => pkg < 4096 && e < 65536
  | .blockMoveRegistration pkg e => pkg < 4096 && e < 65536
  | .blockMoveCompletion pkg e => pkg < 4096 && e < 65536
  | .contextMoveCompletion pkg e => pkg < 4096 && e < 65536
  | .wakeWrite pa _ => pa < 288230376151711744
  | .parkResume pkg e => pkg < 4096 && e < 65536
  | .parkWaitSlotPlace pkg _ => pkg < 4096
  | .fwreq pkg _ pa => pkg < 4096 && pa < 288230376151711744
  | .grexaRefill pkg => pkg < 4096
  | .grexaInsert pkg => pkg < 4096
  | .grexaDrop pkg => pkg < 4096
  | .blog2Write pkg _ _ => pkg < 4096
  | .patrolScrub pa => pa < 288230376151711744
  | .snaptrig pkg => pkg < 4096
  | .snapshotLatch pkg => pkg < 4096
  | .coreReset g => g < 4194304
  | .clusterReset cl => cl < 524288
  | .dieReset die => die < 16384
  | .warmModuleReset pkg => pkg < 4096
  | .coldModuleReset pkg => pkg < 4096
  | .attestationRequest pkg _ _ => pkg < 4096
  | .thermalThrottle pkg => pkg < 4096
  | .thermalShutdown pkg => pkg < 4096
  | .powerCapSet pkg _ => pkg < 4096
  | .grexaImageStage pkg _ => pkg < 4096
  | .illegalInstruction _ _ => true
  | .granaryRefreshEnd die bank => die < 16384 && bank < 512
  | .spillComplete g => g < 4194304
  | .postedWriteAcknowledged who pkg _ => pkg < 4096 && who.core < 4194304 && who.slot < 256
  | .grexaReplyRetry pkg => pkg < 4096
  | .distributorRegistrationRetry pkg _ _ => pkg < 4096
  | .dataPrefetch g _ _ => g < 4194304
  | .tenantConfiguration pkg _ _ => pkg < 4096
  | .i3cDynamicAddress pkg _ => pkg < 4096

end Sys2Proof
end

