-- ==== Sys2Proof/Decode.lean ====
section
/-!
DEFINITION. Instruction lines, heads and tails (R12 to R18), the decoder of a head and its tail (R77 to R83), the
encoder, the packing of lines (R33, R34), and the words of spec/opcode_table.json as lines.
-/

namespace Sys2Proof

/-- Why bytes are no instruction; R83 gives the order of the checks. -/
inductive Reject where
  /-- HC is 0, a reserved bit of the line-control head is set, or the line overflows 64 bytes (R14). -/
  | illegalLine
  /-- Majors 0x17, 0x1D to 0x1F and 0x31 to 0x3F (R83). -/
  | unassignedMajor
  /-- TL is not the one its major permits (R18). -/
  | wrongTail
  /-- A function code that no row of the major lists (R77). -/
  | unassignedFunction
  /-- A reserved field of the head or its tail is non-zero (R18, R77). -/
  | reservedField
  /-- A field holds a value outside its row's range (R81). -/
  | operandRange
  deriving DecidableEq, Repr

/-- Tail length TL of a head (R16). -/
def htl (h : BitVec 16) : BitVec 2 := h.extractLsb' 14 2
/-- Major opcode OP of a head. -/
def hop (h : BitVec 16) : BitVec 6 := h.extractLsb' 8 6
/-- Register field D of a head. -/
def hd (h : BitVec 16) : Reg := h.extractLsb' 3 5
/-- Function or form code X of a head. -/
def hx (h : BitVec 16) : BitVec 3 := h.extractLsb' 0 3

/-- Tail bytes by TL: 0, 2, 4, 8 (R12, R16). -/
def tailBytes (h : BitVec 16) : Nat :=
  match (htl h).toNat with
  | 0 => 0
  | 1 => 2
  | 2 => 4
  | _ => 8

/-- A of a T16 tail (R17). -/
def sa (t : Word) : Reg := t.extractLsb' 11 5
/-- B of a T16 tail. -/
def sb (t : Word) : Reg := t.extractLsb' 6 5
/-- F of a T16 tail. -/
def sf (t : Word) : BitVec 6 := t.extractLsb' 0 6
/-- A of every 32-bit tail that has one (R17, R78). -/
def ta (t : Word) : Reg := t.extractLsb' 27 5
/-- B of a 32-bit tail. -/
def tb (t : Word) : Reg := t.extractLsb' 22 5
/-- C of a 32-bit tail. -/
def tc (t : Word) : Reg := t.extractLsb' 17 5
/-- F of a T32R tail. -/
def tf (t : Word) : BitVec 6 := t.extractLsb' 7 6

/-- The fields of a T32R head and tail but F (R17). -/
def vector (h : BitVec 16) (t : Word) : V32 where
  x := hx h
  d := hd h
  a := ta t
  b := tb t
  c := tc t
  masked := t.extractLsb' 16 1 == 1#1
  mr := t.extractLsb' 13 3
  y := t.extractLsb' 0 7

/-- The TL values that a major permits (R18, R79, R80); none for an unassigned major. -/
def majorTails (op : BitVec 6) : List Nat :=
  match op.toNat with
  | 0x00 | 0x0F | 0x1B => [0]
  | 0x02 | 0x06 | 0x13 | 0x14 | 0x16 | 0x28 | 0x2F => [1]
  | 0x04 => [2, 3]
  | 0x11 | 0x12 | 0x15 => [3]
  | 0x01 | 0x03 | 0x05 | 0x07 | 0x08 | 0x09 | 0x0A | 0x0B | 0x0C | 0x0D | 0x0E | 0x10 => [2]
  | 0x18 | 0x19 | 0x1A | 0x1C => [2]
  | 0x20 | 0x21 | 0x22 | 0x23 | 0x24 | 0x25 | 0x26 | 0x27 => [2]
  | 0x29 | 0x2A | 0x2B | 0x2C | 0x2D | 0x2E | 0x30 => [2]
  | _ => []

/-- MISC, major 0x00 (R79, R80): the instruction its function code names, and whether the fields its row does not name are zero. -/
def decodeMisc (d : BitVec 5) (x : BitVec 3) : Option (Instr × Bool) :=
  match x.toNat with
  | 0 => some (.nop, d == 0#5)
  | 1 => some (.yield, d == 0#5)
  | 2 => some (.exit d, true)
  | 3 => some (.eret, d == 0#5)
  | 4 => some (.brk, d == 0#5)
  | 5 => some (.snap, d == 0#5)
  | _ => none

/-- SYS, major 0x01 (R79, R80): the instruction its function code names, and whether the fields its row does not name are zero. -/
def decodeSys (d : BitVec 5) (x : BitVec 3) (a : BitVec 5) (csr : BitVec 11) (code : BitVec 16) : Option (Instr × Bool) :=
  match x.toNat with
  | 0 => some (.csrr d csr, a == 0#5 && code == 0#16)
  | 1 => some (.csrw d a csr, code == 0#16)
  | 2 => some (.csrs d a csr, code == 0#16)
  | 3 => some (.csrc d a csr, code == 0#16)
  | 4 => some (.trap code, d == 0#5 && a == 0#5 && csr == 0#11)
  | _ => none

/-- ALU, major 0x02 (R79, R80): the instruction its function code names, and whether the fields its row does not name are zero. -/
def decodeAlu (d : BitVec 5) (x : BitVec 3) (a : BitVec 5) (b : BitVec 5) (f : BitVec 6) : Option (Instr × Bool) :=
  match f.toNat with
  | 0 => some (.add d a b, x == 0#3)
  | 1 => some (.sub d a b, x == 0#3)
  | 2 => some (.mul d a b, x == 0#3)
  | 3 => some (.mulh d a b, x == 0#3)
  | 4 => some (.mulhn d a b, x == 0#3)
  | 5 => some (.div d a b, x == 0#3)
  | 6 => some (.divn d a b, x == 0#3)
  | 7 => some (.rem d a b, x == 0#3)
  | 8 => some (.remn d a b, x == 0#3)
  | 9 => some (.and d a b, x == 0#3)
  | 10 => some (.or d a b, x == 0#3)
  | 11 => some (.xor d a b, x == 0#3)
  | 12 => some (.andn d a b, x == 0#3)
  | 13 => some (.shl d a b, x == 0#3)
  | 14 => some (.shr d a b, x == 0#3)
  | 15 => some (.sra d a b, x == 0#3)
  | 16 => some (.rol d a b, x == 0#3)
  | 17 => some (.min d a b, x == 0#3)
  | 18 => some (.max d a b, x == 0#3)
  | 19 => some (.minn d a b, x == 0#3)
  | 20 => some (.maxn d a b, x == 0#3)
  | 21 => some (.slt d a b, x == 0#3)
  | 22 => some (.sltn d a b, x == 0#3)
  | 23 => some (.seq d a b, x == 0#3)
  | 24 => some (.clz d a, x == 0#3 && b == 0#5)
  | 25 => some (.ctz d a, x == 0#3 && b == 0#5)
  | 26 => some (.popc d a, x == 0#3 && b == 0#5)
  | _ => none

/-- ALUI, major 0x03 (R79, R80): the instruction its function code names, and whether the fields its row does not name are zero. -/
def decodeAlui (d : BitVec 5) (x : BitVec 3) (a : BitVec 5) (imm : BitVec 27) : Option (Instr × Bool) :=
  match x.toNat with
  | 0 => some (.addi d a imm, true)
  | 1 => some (.andi d a imm, true)
  | 2 => some (.ori d a imm, true)
  | 3 => some (.xori d a imm, true)
  | 4 => some (.slti d a imm, true)
  | 5 => some (.shli d a imm, true)
  | 6 => some (.shri d a imm, true)
  | 7 => some (.srai d a imm, true)
  | _ => none

/-- LI, major 0x04 (R79, R80): the instruction its function code names, and whether the fields its row does not name are zero. -/
def decodeLi (tl : BitVec 2) (d : Reg) (x : BitVec 3) (t : Word) : Option (Instr × Bool) :=
  if tl == 2#2 then some (.liW d (t.extractLsb' 0 32), x == 0#3) else some (.liD d t, x == 0#3)

/-- SEL, major 0x05 (R79, R80): the instruction its function code names, and whether the fields its row does not name are zero. -/
def decodeSel (o : V32) (f : BitVec 6) : Option (Instr × Bool) :=
  some (.sel o.d o.a o.b o.c, o.x == 0#3 && !o.masked && o.mr == 0#3 && f == 0#6 && o.y == 0#7)

/-- FPU, major 0x06 (R79, R80): the instruction its function code names, and whether the fields its row does not name are zero. -/
def decodeFpu (d : BitVec 5) (x : BitVec 3) (a : BitVec 5) (b : BitVec 5) (f : BitVec 6) : Option (Instr × Bool) :=
  if x.toNat > 1 then none else
  match f.toNat with
  | 0 => some (.fadd (x == 1#3) d a b, true)
  | 1 => some (.fsub (x == 1#3) d a b, true)
  | 2 => some (.fmul (x == 1#3) d a b, true)
  | 3 => some (.fdiv (x == 1#3) d a b, true)
  | 4 => some (.fsqrt (x == 1#3) d a, b == 0#5)
  | 5 => some (.fmin (x == 1#3) d a b, true)
  | 6 => some (.fmax (x == 1#3) d a b, true)
  | 7 => some (.feq (x == 1#3) d a b, true)
  | 8 => some (.flt (x == 1#3) d a b, true)
  | 9 => some (.fle (x == 1#3) d a b, true)
  | 10 => some (.fcvtif (x == 1#3) d a, b == 0#5)
  | 11 => some (.fcvtfi (x == 1#3) d a, b == 0#5)
  | 12 => some (.fclass (x == 1#3) d a, b == 0#5)
  | _ => none

/-- FFMA, major 0x07 (R79, R80): the instruction its function code names, and whether the fields its row does not name are zero. -/
def decodeFfma (o : V32) (f : BitVec 6) : Option (Instr × Bool) :=
  match f.toNat with
  | 0 => some (.ffma o.d o.a o.b o.c o.y, o.x == 0#3 && !o.masked && o.mr == 0#3)
  | 1 => some (.ffms o.d o.a o.b o.c o.y, o.x == 0#3 && !o.masked && o.mr == 0#3)
  | 2 => some (.fnma o.d o.a o.b o.c o.y, o.x == 0#3 && !o.masked && o.mr == 0#3)
  | _ => none

/-- LD, major 0x08 (R79, R80): the instruction its function code names, and whether the fields its row does not name are zero. -/
def decodeLd (d : BitVec 5) (x : BitVec 3) (a : BitVec 5) (imm : BitVec 27) : Option (Instr × Bool) :=
  match x.toNat with
  | 0 => some (.ldb d a imm, true)
  | 1 => some (.ldh d a imm, true)
  | 2 => some (.ldw d a imm, true)
  | 3 => some (.ldd d a imm, true)
  | 4 => some (.ldnb d a imm, true)
  | 5 => some (.ldnh d a imm, true)
  | 6 => some (.ldnw d a imm, true)
  | _ => none

/-- ST, major 0x09 (R79, R80): the instruction its function code names, and whether the fields its row does not name are zero. -/
def decodeSt (d : BitVec 5) (x : BitVec 3) (a : BitVec 5) (imm : BitVec 27) : Option (Instr × Bool) :=
  match x.toNat with
  | 0 => some (.stb d a imm, true)
  | 1 => some (.sth d a imm, true)
  | 2 => some (.stw d a imm, true)
  | 3 => some (.std d a imm, true)
  | _ => none

/-- AMO, major 0x0A (R79, R80): the instruction its function code names, and whether the fields its row does not name are zero. -/
def decodeAmo (d : BitVec 5) (x : BitVec 3) (a : BitVec 5) (b : BitVec 5) (c : BitVec 5) (scope : BitVec 3) (f : BitVec 6) (rest : BitVec 8) : Option (Instr × Bool) :=
  if x.toNat > 1 then none else
  match f.toNat with
  | 0 => some (.aadd (x == 1#3) d a b scope, c == 0#5 && rest == 0#8)
  | 1 => some (.aand (x == 1#3) d a b scope, c == 0#5 && rest == 0#8)
  | 2 => some (.aor (x == 1#3) d a b scope, c == 0#5 && rest == 0#8)
  | 3 => some (.axor (x == 1#3) d a b scope, c == 0#5 && rest == 0#8)
  | 4 => some (.amin (x == 1#3) d a b scope, c == 0#5 && rest == 0#8)
  | 5 => some (.amax (x == 1#3) d a b scope, c == 0#5 && rest == 0#8)
  | 6 => some (.aminn (x == 1#3) d a b scope, c == 0#5 && rest == 0#8)
  | 7 => some (.amaxn (x == 1#3) d a b scope, c == 0#5 && rest == 0#8)
  | 8 => some (.aswp (x == 1#3) d a b scope, c == 0#5 && rest == 0#8)
  | 9 => some (.acas (x == 1#3) d a b c scope, rest == 0#8)
  | _ => none

/-- FUT, major 0x0B (R79, R80): the instruction its function code names, and whether the fields its row does not name are zero. -/
def decodeFut (d : BitVec 5) (x : BitVec 3) (a : BitVec 5) (imm : BitVec 27) : Option (Instr × Bool) :=
  match x.toNat with
  | 0 => some (.ldf d a imm, true)
  | 1 => some (.stf d a imm, true)
  | _ => none

/-- BR, major 0x0C (R79, R80): the instruction its function code names, and whether the fields its row does not name are zero. -/
def decodeBr (d : BitVec 5) (x : BitVec 3) (a : BitVec 5) (b : BitVec 5) (off : BitVec 22) : Option (Instr × Bool) :=
  match x.toNat with
  | 0 => some (.beq a b off, d == 0#5)
  | 1 => some (.bne a b off, d == 0#5)
  | 2 => some (.blt a b off, d == 0#5)
  | 3 => some (.bge a b off, d == 0#5)
  | 4 => some (.bltn a b off, d == 0#5)
  | 5 => some (.bgen a b off, d == 0#5)
  | _ => none

/-- JMP, major 0x0D (R79, R80): the instruction its function code names, and whether the fields its row does not name are zero. -/
def decodeJmp (d : BitVec 5) (x : BitVec 3) (a : BitVec 5) (imm : BitVec 27) : Option (Instr × Bool) :=
  match x.toNat with
  | 0 => some (.j imm, d == 0#5 && a == 0#5)
  | 1 => some (.jal d imm, a == 0#5)
  | 2 => some (.jr d a imm, true)
  | _ => none

/-- LOOP, major 0x0E (R79, R80): the instruction its function code names, and whether the fields its row does not name are zero. -/
def decodeLoop (d : BitVec 5) (x : BitVec 3) (a : BitVec 5) (b : BitVec 5) (len : BitVec 6) (rest : BitVec 16) : Option (Instr × Bool) :=
  some (.loop x d a b len, rest == 0#16)

/-- FENCE, major 0x0F (R79, R80): the instruction its function code names, and whether the fields its row does not name are zero. -/
def decodeFence (d : BitVec 5) (x : BitVec 3) : Option (Instr × Bool) :=
  match x.toNat with
  | 1 => some (.fenceCluster, d == 0#5)
  | 2 => some (.fencePackage, d == 0#5)
  | 3 => some (.fencePod, d == 0#5)
  | 4 => some (.fencet d, true)
  | _ => none

/-- SPAWN, major 0x10 (R79, R80): the instruction its function code names, and whether the fields its row does not name are zero. -/
def decodeSpawn (o : V32) (f : BitVec 6) : Option (Instr × Bool) :=
  some (.spawn o.d o.a o.b o.c (f.extractLsb' 0 5) o.y, o.x == 0#3 && !o.masked && o.mr == 0#3 && f.extractLsb' 5 1 == 0#1)

/-- AWAIT, major 0x11 (R79, R80): the instruction its function code names, and whether the fields its row does not name are zero. -/
def decodeAwait (d : BitVec 5) (x : BitVec 3) (imm : BitVec 64) : Option (Instr × Bool) :=
  match x.toNat with
  | 0 => some (.await d imm, true)
  | 1 => some (.awaitw d imm, true)
  | 2 => some (.awaitg d imm, true)
  | 3 => some (.awaitb d imm, true)
  | _ => none

/-- AWAITC, major 0x12 (R79, R80): the instruction its function code names, and whether the fields its row does not name are zero. -/
def decodeAwaitc (d : BitVec 5) (x : BitVec 3) (imm : BitVec 64) : Option (Instr × Bool) :=
  some (.awaitc x d imm, true)

/-- TOK, major 0x13 (R79, R80): the instruction its function code names, and whether the fields its row does not name are zero. -/
def decodeTok (d : BitVec 5) (x : BitVec 3) (a : BitVec 5) (b : BitVec 5) (f : BitVec 6) : Option (Instr × Bool) :=
  match f.toNat with
  | 0 => some (.tarm a b, d == 0#5 && x == 0#3)
  | 1 => some (.tsig a b, d == 0#5 && x == 0#3)
  | 2 => some (.thw a b, d == 0#5 && x == 0#3)
  | 3 => some (.tpoll d a, x == 0#3 && b == 0#5)
  | 4 => some (.tarmc a b, d == 0#5 && x == 0#3)
  | 5 => some (.tsigc a b, d == 0#5 && x == 0#3)
  | 6 => some (.tpollc d a, x == 0#3 && b == 0#5)
  | _ => none

/-- MBOX, major 0x14 (R79, R80): the instruction its function code names, and whether the fields its row does not name are zero. -/
def decodeMbox (d : BitVec 5) (x : BitVec 3) (a : BitVec 5) (b : BitVec 5) (f : BitVec 6) : Option (Instr × Bool) :=
  match f.toNat with
  | 0 => some (.msend d a b, x == 0#3)
  | 1 => some (.mrecv d a, x == 0#3 && b == 0#5)
  | 2 => some (.mhand a, d == 0#5 && x == 0#3 && b == 0#5)
  | _ => none

/-- PARK, major 0x15 (R79, R80): the instruction its function code names, and whether the fields its row does not name are zero. -/
def decodePark (d : BitVec 5) (x : BitVec 3) (imm : BitVec 64) : Option (Instr × Bool) :=
  match x.toNat with
  | 0 => some (.park d imm, true)
  | _ => none

/-- BLK, major 0x16 (R79, R80): the instruction its function code names, and whether the fields its row does not name are zero. -/
def decodeBlk (d : BitVec 5) (x : BitVec 3) (a : BitVec 5) (b : BitVec 5) (f : BitVec 6) : Option (Instr × Bool) :=
  match f.toNat with
  | 0 => some (.balloc d, x == 0#3 && a == 0#5 && b == 0#5)
  | 1 => some (.bfree a, d == 0#5 && x == 0#3 && b == 0#5)
  | _ => none

/-- CPY, major 0x18 (R79, R80): the instruction its function code names, and whether the fields its row does not name are zero. -/
def decodeCpy (o : V32) (f : BitVec 6) : Option (Instr × Bool) :=
  match o.x.toNat with
  | 0 => some (.cpyMem o.d o.a, o.b == 0#5 && o.c == 0#5 && !o.masked && o.mr == 0#3 && f == 0#6 && o.y == 0#7)
  | 1 => some (.cpyVec o.d o.a, o.b == 0#5 && o.c == 0#5 && !o.masked && o.mr == 0#3 && f == 0#6 && o.y == 0#7)
  | _ => none

/-- CPYB, major 0x19 (R79, R80): the instruction its function code names, and whether the fields its row does not name are zero. -/
def decodeCpyb (o : V32) (f : BitVec 6) : Option (Instr × Bool) :=
  some (.cpyb o.d o.a o.masked o.mr, o.x == 0#3 && o.b == 0#5 && o.c == 0#5 && f == 0#6 && o.y == 0#7)

/-- CPYV, major 0x1A (R79, R80): the instruction its function code names, and whether the fields its row does not name are zero. -/
def decodeCpyv (o : V32) (f : BitVec 6) : Option (Instr × Bool) :=
  match o.x.toNat with
  | 0 => some (.cpyvl o.d o.a o.b (f.extractLsb' 0 3), o.c == 0#5 && !o.masked && o.mr == 0#3 && f.extractLsb' 3 3 == 0#3 && o.y == 0#7)
  | 1 => some (.cpyvs o.d o.a o.b (f.extractLsb' 0 3), o.c == 0#5 && !o.masked && o.mr == 0#3 && f.extractLsb' 3 3 == 0#3 && o.y == 0#7)
  | 2 => some (.cpyrr o.d o.a o.b o.c (f.extractLsb' 0 3), !o.masked && o.mr == 0#3 && f.extractLsb' 3 3 == 0#3 && o.y == 0#7)
  | 3 => some (.cpyvg o.d o.a o.b o.c, !o.masked && o.mr == 0#3 && f == 0#6 && o.y == 0#7)
  | _ => none

/-- CSEAL, major 0x1B (R79, R80): the instruction its function code names, and whether the fields its row does not name are zero. -/
def decodeCseal (d : BitVec 5) (x : BitVec 3) : Option (Instr × Bool) :=
  match x.toNat with
  | 0 => some (.cseal, d == 0#5)
  | _ => none

/-- XBSWAP, major 0x1C (R79, R80): the instruction its function code names, and whether the fields its row does not name are zero. -/
def decodeXbswap (o : V32) (f : BitVec 6) : Option (Instr × Bool) :=
  some (.xbswap o.d o.a o.b o.c f o.y, o.x == 0#3 && !o.masked && o.mr == 0#3)

/-- SETVL, major 0x20 (R79, R80): the instruction its function code names, and whether the fields its row does not name are zero. -/
def decodeSetvl (o : V32) (f : BitVec 6) : Option (Instr × Bool) :=
  match o.x.toNat with
  | 0 => some (.setvl o.d o.a (f.extractLsb' 0 2) (o.y.extractLsb' 3 4), o.b == 0#5 && o.c == 0#5 && !o.masked && o.mr == 0#3 && f.extractLsb' 2 4 == 0#4 && o.y.extractLsb' 0 3 == 0#3)
  | 1 => some (.setvlhw o.d o.a o.b (f.extractLsb' 0 2) (o.y.extractLsb' 3 4), o.c == 0#5 && !o.masked && o.mr == 0#3 && f.extractLsb' 2 4 == 0#4 && o.y.extractLsb' 0 3 == 0#3)
  | _ => none

/-- VINT, major 0x21 (R79, R80): the instruction its function code names, and whether the fields its row does not name are zero. -/
def decodeVint (o : V32) (f : BitVec 6) : Option (Instr × Bool) :=
  match f.toNat with
  | 0 => some (.vadd o, true)
  | 1 => some (.vsub o, true)
  | 2 => some (.vmul o, true)
  | 3 => some (.vmulh o, true)
  | 4 => some (.vdiv o, true)
  | 5 => some (.vrem o, true)
  | 6 => some (.vand o, true)
  | 7 => some (.vor o, true)
  | 8 => some (.vxor o, true)
  | 9 => some (.vshl o, true)
  | 10 => some (.vshr o, true)
  | 11 => some (.vsra o, true)
  | 12 => some (.vmin o, true)
  | 13 => some (.vmax o, true)
  | 14 => some (.vsadd o, true)
  | 15 => some (.vssub o, true)
  | _ => none

/-- VFP, major 0x22 (R79, R80): the instruction its function code names, and whether the fields its row does not name are zero. -/
def decodeVfp (o : V32) (f : BitVec 6) : Option (Instr × Bool) :=
  match f.toNat with
  | 0 => some (.vfadd o, true)
  | 1 => some (.vfsub o, true)
  | 2 => some (.vfmul o, true)
  | 3 => some (.vfdiv o, true)
  | 4 => some (.vfsqrt o, true)
  | 5 => some (.vfmin o, true)
  | 6 => some (.vfmax o, true)
  | 7 => some (.vfabs o, true)
  | 8 => some (.vffma o, true)
  | 9 => some (.vffms o, true)
  | 10 => some (.vfnma o, true)
  | 11 => some (.vfrcp o, true)
  | 12 => some (.vfrsq o, true)
  | 13 => some (.vfrcps o, true)
  | 14 => some (.vfrsqs o, true)
  | 15 => some (.vfexp2 o, true)
  | _ => none

/-- VCVT, major 0x23 (R79, R80): the instruction its function code names, and whether the fields its row does not name are zero. -/
def decodeVcvt (o : V32) (f : BitVec 6) : Option (Instr × Bool) :=
  match f.toNat with
  | 0 => some (.vcvt o, true)
  | 1 => some (.vcvts o, true)
  | 2 => some (.vqblk o, true)
  | _ => none

/-- VCMP, major 0x24 (R79, R80): the instruction its function code names, and whether the fields its row does not name are zero. -/
def decodeVcmp (o : V32) (f : BitVec 6) : Option (Instr × Bool) :=
  match f.toNat with
  | 0 => some (.veq o, true)
  | 1 => some (.vne o, true)
  | 2 => some (.vlt o, true)
  | 3 => some (.vle o, true)
  | 4 => some (.vgt o, true)
  | 5 => some (.vge o, true)
  | 6 => some (.vfeq o, true)
  | 7 => some (.vflt o, true)
  | 8 => some (.vfle o, true)
  | 9 => some (.vfunord o, true)
  | _ => none

/-- VMOV, major 0x25 (R79, R80): the instruction its function code names, and whether the fields its row does not name are zero. -/
def decodeVmov (o : V32) (f : BitVec 6) : Option (Instr × Bool) :=
  match f.toNat with
  | 0 => some (.vmv o, true)
  | 1 => some (.vmvs o, true)
  | 2 => some (.vmvx o, true)
  | 3 => some (.vmerge o, true)
  | 4 => some (.vidx o, true)
  | 5 => some (.vsow o, true)
  | _ => none

/-- VRED, major 0x26 (R79, R80): the instruction its function code names, and whether the fields its row does not name are zero. -/
def decodeVred (o : V32) (f : BitVec 6) : Option (Instr × Bool) :=
  match f.toNat with
  | 0 => some (.vredsum o, true)
  | 1 => some (.vredosum o, true)
  | 2 => some (.vredmin o, true)
  | 3 => some (.vredmax o, true)
  | 4 => some (.vredand o, true)
  | 5 => some (.vredor o, true)
  | 6 => some (.vscansum o, true)
  | 7 => some (.vscanmin o, true)
  | 8 => some (.vscanmax o, true)
  | _ => none

/-- VPERM, major 0x27 (R79, R80): the instruction its function code names, and whether the fields its row does not name are zero. -/
def decodeVperm (o : V32) (f : BitVec 6) : Option (Instr × Bool) :=
  match f.toNat with
  | 0 => some (.vgather o, true)
  | 1 => some (.vslideup o, true)
  | 2 => some (.vslidedn o, true)
  | 3 => some (.vcompress o, true)
  | 4 => some (.vcidx o, true)
  | _ => none

/-- MASK, major 0x28 (R79, R80): the instruction its function code names, and whether the fields its row does not name are zero. -/
def decodeMask (d : BitVec 5) (x : BitVec 3) (a : BitVec 5) (b : BitVec 5) (f : BitVec 6) : Option (Instr × Bool) :=
  match f.toNat with
  | 0 => some (.mand d a b, x == 0#3)
  | 1 => some (.mor d a b, x == 0#3)
  | 2 => some (.mxor d a b, x == 0#3)
  | 3 => some (.mandn d a b, x == 0#3)
  | 4 => some (.mnot d a, x == 0#3 && b == 0#5)
  | 5 => some (.mpopc d a, x == 0#3 && b == 0#5)
  | 6 => some (.mfirst d a, x == 0#3 && b == 0#5)
  | 7 => some (.mfromv d a, x == 0#3 && b == 0#5)
  | 8 => some (.msetvl d a, x == 0#3 && b == 0#5)
  | 9 => some (.mclr d, x == 0#3 && a == 0#5 && b == 0#5)
  | _ => none

/-- VLD, major 0x29 (R79, R80): the instruction its function code names, and whether the fields its row does not name are zero. -/
def decodeVld (o : V32) (f : BitVec 6) : Option (Instr × Bool) :=
  match o.x.toNat with
  | 0 => some (.vld o, f == 0#6)
  | 1 => some (.vlds o, f == 0#6)
  | 2 => some (.vldx o, f == 0#6)
  | 3 => some (.vldseg o (f.extractLsb' 0 3), f.extractLsb' 3 3 == 0#3)
  | 4 => some (.vldff o, f == 0#6)
  | _ => none

/-- VST, major 0x2A (R79, R80): the instruction its function code names, and whether the fields its row does not name are zero. -/
def decodeVst (o : V32) (f : BitVec 6) : Option (Instr × Bool) :=
  match o.x.toNat with
  | 0 => some (.vst o, f == 0#6)
  | 1 => some (.vsts o, f == 0#6)
  | 2 => some (.vstx o, f == 0#6)
  | 3 => some (.vstseg o (f.extractLsb' 0 3), f.extractLsb' 3 3 == 0#3)
  | _ => none

/-- VAMO, major 0x2B (R79, R80): the instruction its function code names, and whether the fields its row does not name are zero. -/
def decodeVamo (o : V32) (f : BitVec 6) : Option (Instr × Bool) :=
  match f.toNat with
  | 0 => some (.vaadd o, true)
  | 1 => some (.vamin o, true)
  | 2 => some (.vamax o, true)
  | 3 => some (.vaor o, true)
  | _ => none

/-- VXLATE, major 0x2C (R79, R80): the instruction its function code names, and whether the fields its row does not name are zero. -/
def decodeVxlate (o : V32) (f : BitVec 6) : Option (Instr × Bool) :=
  match o.x.toNat with
  | 0 => some (.vxlate o, f == 0#6)
  | 1 => some (.vxlateff o, f == 0#6)
  | _ => none

/-- VISSUE, major 0x2D (R79, R80): the instruction its function code names, and whether the fields its row does not name are zero. -/
def decodeVissue (o : V32) (f : BitVec 6) : Option (Instr × Bool) :=
  some (.vissue o.a o.c (f == 1#6) o.masked o.mr, o.d == 0#5 && o.x == 0#3 && o.b == 0#5 && f.extractLsb' 1 5 == 0#5 && o.y == 0#7)

/-- VCOLL, major 0x2E (R79, R80): the instruction its function code names, and whether the fields its row does not name are zero. -/
def decodeVcoll (o : V32) (f : BitVec 6) : Option (Instr × Bool) :=
  match f.toNat with
  | 0 => some (.vallred o, true)
  | 1 => some (.vredscat o, true)
  | 2 => some (.vallgath o, true)
  | 3 => some (.vbcast o, true)
  | 4 => some (.vall2all o, true)
  | _ => none

/-- GRP, major 0x2F (R79, R80): the instruction its function code names, and whether the fields its row does not name are zero. -/
def decodeGrp (d : BitVec 5) (x : BitVec 3) (a : BitVec 5) (b : BitVec 5) (f : BitVec 6) : Option (Instr × Bool) :=
  match f.toNat with
  | 0 => some (.gset d a b, x == 0#3)
  | 1 => some (.grank d a, x == 0#3 && b == 0#5)
  | 2 => some (.gsize d a, x == 0#3 && b == 0#5)
  | _ => none

/-- MAT, major 0x30 (R79, R80): the instruction its function code names, and whether the fields its row does not name are zero. -/
def decodeMat (o : V32) (f : BitVec 6) : Option (Instr × Bool) :=
  match f.toNat, o.c.toNat with
  | 0, _ => some (.mloadw o.a (o.y.extractLsb' 3 4), o.d == 0#5 && o.x == 0#3 && o.b == 0#5 && o.c == 0#5 && !o.masked && o.mr == 0#3 && o.y.extractLsb' 0 3 == 0#3)
  | 1, _ => some (.mstream o.x o.a o.b o.c, o.d == 0#5 && !o.masked && o.mr == 0#3 && o.y == 0#7)
  | 2, _ => some (.mzero o.x o.b o.c, o.d == 0#5 && o.a == 0#5 && !o.masked && o.mr == 0#3 && o.y == 0#7)
  | 3, 0 => some (.mread o.x o.d o.b o.y, o.a == 0#5 && !o.masked && o.mr == 0#3)
  | 3, 1 => some (.mreadPair o.x o.d o.b, o.a == 0#5 && !o.masked && o.mr == 0#3 && o.y == 0#7)
  | 4, _ => some (.mwrite o.x o.a o.b (o.y.extractLsb' 3 4), o.d == 0#5 && o.c == 0#5 && !o.masked && o.mr == 0#3 && o.y.extractLsb' 0 3 == 0#3)
  | _, _ => none

/-- The instruction that major, function code and fields name, and whether its reserved fields are zero (R83 steps 4, 5). -/
def candidate (h : BitVec 16) (t : Word) : Option (Instr × Bool) :=
  match (hop h).toNat with
  | 0 => decodeMisc (hd h) (hx h)
  | 1 => decodeSys (hd h) (hx h) (ta t) (t.extractLsb' 16 11) (t.extractLsb' 0 16)
  | 2 => decodeAlu (hd h) (hx h) (sa t) (sb t) (sf t)
  | 3 => decodeAlui (hd h) (hx h) (ta t) (t.extractLsb' 0 27)
  | 4 => decodeLi (htl h) (hd h) (hx h) t
  | 5 => decodeSel (vector h t) (tf t)
  | 6 => decodeFpu (hd h) (hx h) (sa t) (sb t) (sf t)
  | 7 => decodeFfma (vector h t) (tf t)
  | 8 => decodeLd (hd h) (hx h) (ta t) (t.extractLsb' 0 27)
  | 9 => decodeSt (hd h) (hx h) (ta t) (t.extractLsb' 0 27)
  | 10 => decodeAmo (hd h) (hx h) (ta t) (tb t) (tc t) (t.extractLsb' 14 3) (t.extractLsb' 8 6) (t.extractLsb' 0 8)
  | 11 => decodeFut (hd h) (hx h) (ta t) (t.extractLsb' 0 27)
  | 12 => decodeBr (hd h) (hx h) (ta t) (tb t) (t.extractLsb' 0 22)
  | 13 => decodeJmp (hd h) (hx h) (ta t) (t.extractLsb' 0 27)
  | 14 => decodeLoop (hd h) (hx h) (ta t) (tb t) (t.extractLsb' 16 6) (t.extractLsb' 0 16)
  | 15 => decodeFence (hd h) (hx h)
  | 16 => decodeSpawn (vector h t) (tf t)
  | 17 => decodeAwait (hd h) (hx h) t
  | 18 => decodeAwaitc (hd h) (hx h) t
  | 19 => decodeTok (hd h) (hx h) (sa t) (sb t) (sf t)
  | 20 => decodeMbox (hd h) (hx h) (sa t) (sb t) (sf t)
  | 21 => decodePark (hd h) (hx h) t
  | 22 => decodeBlk (hd h) (hx h) (sa t) (sb t) (sf t)
  | 24 => decodeCpy (vector h t) (tf t)
  | 25 => decodeCpyb (vector h t) (tf t)
  | 26 => decodeCpyv (vector h t) (tf t)
  | 27 => decodeCseal (hd h) (hx h)
  | 28 => decodeXbswap (vector h t) (tf t)
  | 32 => decodeSetvl (vector h t) (tf t)
  | 33 => decodeVint (vector h t) (tf t)
  | 34 => decodeVfp (vector h t) (tf t)
  | 35 => decodeVcvt (vector h t) (tf t)
  | 36 => decodeVcmp (vector h t) (tf t)
  | 37 => decodeVmov (vector h t) (tf t)
  | 38 => decodeVred (vector h t) (tf t)
  | 39 => decodeVperm (vector h t) (tf t)
  | 40 => decodeMask (hd h) (hx h) (sa t) (sb t) (sf t)
  | 41 => decodeVld (vector h t) (tf t)
  | 42 => decodeVst (vector h t) (tf t)
  | 43 => decodeVamo (vector h t) (tf t)
  | 44 => decodeVxlate (vector h t) (tf t)
  | 45 => decodeVissue (vector h t) (tf t)
  | 46 => decodeVcoll (vector h t) (tf t)
  | 47 => decodeGrp (hd h) (hx h) (sa t) (sb t) (sf t)
  | 48 => decodeMat (vector h t) (tf t)
  | _ => none

/-- The instruction of a head and its tail, or which of R83's checks refuses them. -/
def decode (h : BitVec 16) (t : Word) : Except Reject Instr :=
  if majorTails (hop h) = [] then .error .unassignedMajor
  else if !(majorTails (hop h)).contains (htl h).toNat then .error .wrongTail
  else match candidate h t with
    | none => .error .unassignedFunction
    | some (i, reserved) =>
      if !reserved then .error .reservedField
      else if !i.wf then .error .operandRange
      else .ok i

/-! ### The encoder, from the same tables -/

/-- A head (R16). -/
def head (tl : BitVec 2) (op : BitVec 6) (d : Reg) (x : BitVec 3) : BitVec 16 := tl ++ op ++ d ++ x
/-- A T16 tail (R17). -/
def tail16 (a b : Reg) (f : BitVec 6) : Word := 0#48 ++ a ++ b ++ f
/-- A T32R tail (R17). -/
def tailR (a b c : Reg) (mk : Bool) (mr : BitVec 3) (f : BitVec 6) (y : BitVec 7) : Word :=
  0#32 ++ a ++ b ++ c ++ BitVec.ofBool mk ++ mr ++ f ++ y
/-- The T32R tail of a vector instruction. -/
def tailV (o : V32) (f : BitVec 6) : Word := tailR o.a o.b o.c o.masked o.mr f o.y
/-- A T32I tail (R17). -/
def tailI (a : Reg) (imm : BitVec 27) : Word := 0#32 ++ a ++ imm
/-- A T32B tail (R17). -/
def tailB (a b : Reg) (off : BitVec 22) : Word := 0#32 ++ a ++ b ++ off
/-- The tail of SYS (R78). -/
def tailSys (a : Reg) (csr : BitVec 11) (code : BitVec 16) : Word := 0#32 ++ a ++ csr ++ code
/-- The tail of AMO (R78). -/
def tailAmo (a b c : Reg) (scope : BitVec 3) (f : BitVec 6) : Word := 0#32 ++ a ++ b ++ c ++ scope ++ f ++ 0#8
/-- The tail of LOOP (R78). -/
def tailLoop (p st : Reg) (len : BitVec 6) : Word := 0#32 ++ p ++ st ++ len ++ 0#16
/-- The 32-bit tail of LI (R78). -/
def tail32 (imm : BitVec 32) : Word := 0#32 ++ imm
/-- X of FPU and AMO: 0 for the narrow form, 1 for the wide one (R79). -/
def widthCode (dbl : Bool) : BitVec 3 := if dbl then 1#3 else 0#3

/-- The head and tail of an instruction (R77 to R80); none for an event, which has no encoding. -/
def encode : Instr → Option (BitVec 16 × Word)
  | .nop => some (head 0#2 0#6 0#5 0#3, 0#64)
  | .yield => some (head 0#2 0#6 0#5 1#3, 0#64)
  | .exit d => some (head 0#2 0#6 d 2#3, 0#64)
  | .eret => some (head 0#2 0#6 0#5 3#3, 0#64)
  | .brk => some (head 0#2 0#6 0#5 4#3, 0#64)
  | .snap => some (head 0#2 0#6 0#5 5#3, 0#64)
  | .csrr d csr => some (head 2#2 1#6 d 0#3, tailSys 0#5 csr 0#16)
  | .csrw d a csr => some (head 2#2 1#6 d 1#3, tailSys a csr 0#16)
  | .csrs d a csr => some (head 2#2 1#6 d 2#3, tailSys a csr 0#16)
  | .csrc d a csr => some (head 2#2 1#6 d 3#3, tailSys a csr 0#16)
  | .trap code => some (head 2#2 1#6 0#5 4#3, tailSys 0#5 0#11 code)
  | .add d a b => some (head 1#2 2#6 d 0#3, tail16 a b 0#6)
  | .sub d a b => some (head 1#2 2#6 d 0#3, tail16 a b 1#6)
  | .mul d a b => some (head 1#2 2#6 d 0#3, tail16 a b 2#6)
  | .mulh d a b => some (head 1#2 2#6 d 0#3, tail16 a b 3#6)
  | .mulhn d a b => some (head 1#2 2#6 d 0#3, tail16 a b 4#6)
  | .div d a b => some (head 1#2 2#6 d 0#3, tail16 a b 5#6)
  | .divn d a b => some (head 1#2 2#6 d 0#3, tail16 a b 6#6)
  | .rem d a b => some (head 1#2 2#6 d 0#3, tail16 a b 7#6)
  | .remn d a b => some (head 1#2 2#6 d 0#3, tail16 a b 8#6)
  | .and d a b => some (head 1#2 2#6 d 0#3, tail16 a b 9#6)
  | .or d a b => some (head 1#2 2#6 d 0#3, tail16 a b 10#6)
  | .xor d a b => some (head 1#2 2#6 d 0#3, tail16 a b 11#6)
  | .andn d a b => some (head 1#2 2#6 d 0#3, tail16 a b 12#6)
  | .shl d a b => some (head 1#2 2#6 d 0#3, tail16 a b 13#6)
  | .shr d a b => some (head 1#2 2#6 d 0#3, tail16 a b 14#6)
  | .sra d a b => some (head 1#2 2#6 d 0#3, tail16 a b 15#6)
  | .rol d a b => some (head 1#2 2#6 d 0#3, tail16 a b 16#6)
  | .min d a b => some (head 1#2 2#6 d 0#3, tail16 a b 17#6)
  | .max d a b => some (head 1#2 2#6 d 0#3, tail16 a b 18#6)
  | .minn d a b => some (head 1#2 2#6 d 0#3, tail16 a b 19#6)
  | .maxn d a b => some (head 1#2 2#6 d 0#3, tail16 a b 20#6)
  | .slt d a b => some (head 1#2 2#6 d 0#3, tail16 a b 21#6)
  | .sltn d a b => some (head 1#2 2#6 d 0#3, tail16 a b 22#6)
  | .seq d a b => some (head 1#2 2#6 d 0#3, tail16 a b 23#6)
  | .clz d a => some (head 1#2 2#6 d 0#3, tail16 a 0#5 24#6)
  | .ctz d a => some (head 1#2 2#6 d 0#3, tail16 a 0#5 25#6)
  | .popc d a => some (head 1#2 2#6 d 0#3, tail16 a 0#5 26#6)
  | .addi d a imm => some (head 2#2 3#6 d 0#3, tailI a imm)
  | .andi d a imm => some (head 2#2 3#6 d 1#3, tailI a imm)
  | .ori d a imm => some (head 2#2 3#6 d 2#3, tailI a imm)
  | .xori d a imm => some (head 2#2 3#6 d 3#3, tailI a imm)
  | .slti d a imm => some (head 2#2 3#6 d 4#3, tailI a imm)
  | .shli d a imm => some (head 2#2 3#6 d 5#3, tailI a imm)
  | .shri d a imm => some (head 2#2 3#6 d 6#3, tailI a imm)
  | .srai d a imm => some (head 2#2 3#6 d 7#3, tailI a imm)
  | .liW d imm => some (head 2#2 4#6 d 0#3, tail32 imm)
  | .liD d imm => some (head 3#2 4#6 d 0#3, imm)
  | .sel d a b c => some (head 2#2 5#6 d 0#3, tailR a b c false 0#3 0#6 0#7)
  | .fadd dbl d a b => some (head 1#2 6#6 d (widthCode dbl), tail16 a b 0#6)
  | .fsub dbl d a b => some (head 1#2 6#6 d (widthCode dbl), tail16 a b 1#6)
  | .fmul dbl d a b => some (head 1#2 6#6 d (widthCode dbl), tail16 a b 2#6)
  | .fdiv dbl d a b => some (head 1#2 6#6 d (widthCode dbl), tail16 a b 3#6)
  | .fsqrt dbl d a => some (head 1#2 6#6 d (widthCode dbl), tail16 a 0#5 4#6)
  | .fmin dbl d a b => some (head 1#2 6#6 d (widthCode dbl), tail16 a b 5#6)
  | .fmax dbl d a b => some (head 1#2 6#6 d (widthCode dbl), tail16 a b 6#6)
  | .feq dbl d a b => some (head 1#2 6#6 d (widthCode dbl), tail16 a b 7#6)
  | .flt dbl d a b => some (head 1#2 6#6 d (widthCode dbl), tail16 a b 8#6)
  | .fle dbl d a b => some (head 1#2 6#6 d (widthCode dbl), tail16 a b 9#6)
  | .fcvtif dbl d a => some (head 1#2 6#6 d (widthCode dbl), tail16 a 0#5 10#6)
  | .fcvtfi dbl d a => some (head 1#2 6#6 d (widthCode dbl), tail16 a 0#5 11#6)
  | .fclass dbl d a => some (head 1#2 6#6 d (widthCode dbl), tail16 a 0#5 12#6)
  | .ffma d a b c y => some (head 2#2 7#6 d 0#3, tailR a b c false 0#3 0#6 y)
  | .ffms d a b c y => some (head 2#2 7#6 d 0#3, tailR a b c false 0#3 1#6 y)
  | .fnma d a b c y => some (head 2#2 7#6 d 0#3, tailR a b c false 0#3 2#6 y)
  | .ldb d a imm => some (head 2#2 8#6 d 0#3, tailI a imm)
  | .ldh d a imm => some (head 2#2 8#6 d 1#3, tailI a imm)
  | .ldw d a imm => some (head 2#2 8#6 d 2#3, tailI a imm)
  | .ldd d a imm => some (head 2#2 8#6 d 3#3, tailI a imm)
  | .ldnb d a imm => some (head 2#2 8#6 d 4#3, tailI a imm)
  | .ldnh d a imm => some (head 2#2 8#6 d 5#3, tailI a imm)
  | .ldnw d a imm => some (head 2#2 8#6 d 6#3, tailI a imm)
  | .stb d a imm => some (head 2#2 9#6 d 0#3, tailI a imm)
  | .sth d a imm => some (head 2#2 9#6 d 1#3, tailI a imm)
  | .stw d a imm => some (head 2#2 9#6 d 2#3, tailI a imm)
  | .std d a imm => some (head 2#2 9#6 d 3#3, tailI a imm)
  | .aadd dbl d a b scope => some (head 2#2 10#6 d (widthCode dbl), tailAmo a b 0#5 scope 0#6)
  | .aand dbl d a b scope => some (head 2#2 10#6 d (widthCode dbl), tailAmo a b 0#5 scope 1#6)
  | .aor dbl d a b scope => some (head 2#2 10#6 d (widthCode dbl), tailAmo a b 0#5 scope 2#6)
  | .axor dbl d a b scope => some (head 2#2 10#6 d (widthCode dbl), tailAmo a b 0#5 scope 3#6)
  | .amin dbl d a b scope => some (head 2#2 10#6 d (widthCode dbl), tailAmo a b 0#5 scope 4#6)
  | .amax dbl d a b scope => some (head 2#2 10#6 d (widthCode dbl), tailAmo a b 0#5 scope 5#6)
  | .aminn dbl d a b scope => some (head 2#2 10#6 d (widthCode dbl), tailAmo a b 0#5 scope 6#6)
  | .amaxn dbl d a b scope => some (head 2#2 10#6 d (widthCode dbl), tailAmo a b 0#5 scope 7#6)
  | .aswp dbl d a b scope => some (head 2#2 10#6 d (widthCode dbl), tailAmo a b 0#5 scope 8#6)
  | .acas dbl d a b c scope => some (head 2#2 10#6 d (widthCode dbl), tailAmo a b c scope 9#6)
  | .ldf d a imm => some (head 2#2 11#6 d 0#3, tailI a imm)
  | .stf d a imm => some (head 2#2 11#6 d 1#3, tailI a imm)
  | .beq a b off => some (head 2#2 12#6 0#5 0#3, tailB a b off)
  | .bne a b off => some (head 2#2 12#6 0#5 1#3, tailB a b off)
  | .blt a b off => some (head 2#2 12#6 0#5 2#3, tailB a b off)
  | .bge a b off => some (head 2#2 12#6 0#5 3#3, tailB a b off)
  | .bltn a b off => some (head 2#2 12#6 0#5 4#3, tailB a b off)
  | .bgen a b off => some (head 2#2 12#6 0#5 5#3, tailB a b off)
  | .j imm => some (head 2#2 13#6 0#5 0#3, tailI 0#5 imm)
  | .jal d imm => some (head 2#2 13#6 d 1#3, tailI 0#5 imm)
  | .jr d a imm => some (head 2#2 13#6 d 2#3, tailI a imm)
  | .loop x d p st len => some (head 2#2 14#6 d x, tailLoop p st len)
  | .fenceCluster => some (head 0#2 15#6 0#5 1#3, 0#64)
  | .fencePackage => some (head 0#2 15#6 0#5 2#3, 0#64)
  | .fencePod => some (head 0#2 15#6 0#5 3#3, 0#64)
  | .fencet d => some (head 0#2 15#6 d 4#3, 0#64)
  | .spawn d a b c e y => some (head 2#2 16#6 d 0#3, tailR a b c false 0#3 (0#1 ++ e) y)
  | .await d live => some (head 3#2 17#6 d 0#3, live)
  | .awaitw d live => some (head 3#2 17#6 d 1#3, live)
  | .awaitg d live => some (head 3#2 17#6 d 2#3, live)
  | .awaitb n live => some (head 3#2 17#6 n 3#3, live)
  | .awaitc x d live => some (head 3#2 18#6 d x, live)
  | .tarm a b => some (head 1#2 19#6 0#5 0#3, tail16 a b 0#6)
  | .tsig a b => some (head 1#2 19#6 0#5 0#3, tail16 a b 1#6)
  | .thw a b => some (head 1#2 19#6 0#5 0#3, tail16 a b 2#6)
  | .tpoll d a => some (head 1#2 19#6 d 0#3, tail16 a 0#5 3#6)
  | .tarmc a b => some (head 1#2 19#6 0#5 0#3, tail16 a b 4#6)
  | .tsigc a b => some (head 1#2 19#6 0#5 0#3, tail16 a b 5#6)
  | .tpollc d a => some (head 1#2 19#6 d 0#3, tail16 a 0#5 6#6)
  | .msend d a b => some (head 1#2 20#6 d 0#3, tail16 a b 0#6)
  | .mrecv d a => some (head 1#2 20#6 d 0#3, tail16 a 0#5 1#6)
  | .mhand a => some (head 1#2 20#6 0#5 0#3, tail16 a 0#5 2#6)
  | .park d live => some (head 3#2 21#6 d 0#3, live)
  | .balloc d => some (head 1#2 22#6 d 0#3, tail16 0#5 0#5 0#6)
  | .bfree a => some (head 1#2 22#6 0#5 0#3, tail16 a 0#5 1#6)
  | .cpyMem d a => some (head 2#2 24#6 d 0#3, tailR a 0#5 0#5 false 0#3 0#6 0#7)
  | .cpyVec d a => some (head 2#2 24#6 d 1#3, tailR a 0#5 0#5 false 0#3 0#6 0#7)
  | .cpyb d a masked mr => some (head 2#2 25#6 d 0#3, tailR a 0#5 0#5 masked mr 0#6 0#7)
  | .cpyvl d a b n => some (head 2#2 26#6 d 0#3, tailR a b 0#5 false 0#3 (0#3 ++ n) 0#7)
  | .cpyvs d a b n => some (head 2#2 26#6 d 1#3, tailR a b 0#5 false 0#3 (0#3 ++ n) 0#7)
  | .cpyrr d a b c n => some (head 2#2 26#6 d 2#3, tailR a b c false 0#3 (0#3 ++ n) 0#7)
  | .cpyvg d a b c => some (head 2#2 26#6 d 3#3, tailR a b c false 0#3 0#6 0#7)
  | .cseal => some (head 0#2 27#6 0#5 0#3, 0#64)
  | .xbswap d a b c p y => some (head 2#2 28#6 d 0#3, tailR a b c false 0#3 p y)
  | .setvl d a dc t => some (head 2#2 32#6 d 0#3, tailR a 0#5 0#5 false 0#3 (0#4 ++ dc) (t ++ 0#3))
  | .setvlhw d a b dc t => some (head 2#2 32#6 d 1#3, tailR a b 0#5 false 0#3 (0#4 ++ dc) (t ++ 0#3))
  | .vadd o => some (head 2#2 33#6 o.d o.x, tailV o 0#6)
  | .vsub o => some (head 2#2 33#6 o.d o.x, tailV o 1#6)
  | .vmul o => some (head 2#2 33#6 o.d o.x, tailV o 2#6)
  | .vmulh o => some (head 2#2 33#6 o.d o.x, tailV o 3#6)
  | .vdiv o => some (head 2#2 33#6 o.d o.x, tailV o 4#6)
  | .vrem o => some (head 2#2 33#6 o.d o.x, tailV o 5#6)
  | .vand o => some (head 2#2 33#6 o.d o.x, tailV o 6#6)
  | .vor o => some (head 2#2 33#6 o.d o.x, tailV o 7#6)
  | .vxor o => some (head 2#2 33#6 o.d o.x, tailV o 8#6)
  | .vshl o => some (head 2#2 33#6 o.d o.x, tailV o 9#6)
  | .vshr o => some (head 2#2 33#6 o.d o.x, tailV o 10#6)
  | .vsra o => some (head 2#2 33#6 o.d o.x, tailV o 11#6)
  | .vmin o => some (head 2#2 33#6 o.d o.x, tailV o 12#6)
  | .vmax o => some (head 2#2 33#6 o.d o.x, tailV o 13#6)
  | .vsadd o => some (head 2#2 33#6 o.d o.x, tailV o 14#6)
  | .vssub o => some (head 2#2 33#6 o.d o.x, tailV o 15#6)
  | .vfadd o => some (head 2#2 34#6 o.d o.x, tailV o 0#6)
  | .vfsub o => some (head 2#2 34#6 o.d o.x, tailV o 1#6)
  | .vfmul o => some (head 2#2 34#6 o.d o.x, tailV o 2#6)
  | .vfdiv o => some (head 2#2 34#6 o.d o.x, tailV o 3#6)
  | .vfsqrt o => some (head 2#2 34#6 o.d o.x, tailV o 4#6)
  | .vfmin o => some (head 2#2 34#6 o.d o.x, tailV o 5#6)
  | .vfmax o => some (head 2#2 34#6 o.d o.x, tailV o 6#6)
  | .vfabs o => some (head 2#2 34#6 o.d o.x, tailV o 7#6)
  | .vffma o => some (head 2#2 34#6 o.d o.x, tailV o 8#6)
  | .vffms o => some (head 2#2 34#6 o.d o.x, tailV o 9#6)
  | .vfnma o => some (head 2#2 34#6 o.d o.x, tailV o 10#6)
  | .vfrcp o => some (head 2#2 34#6 o.d o.x, tailV o 11#6)
  | .vfrsq o => some (head 2#2 34#6 o.d o.x, tailV o 12#6)
  | .vfrcps o => some (head 2#2 34#6 o.d o.x, tailV o 13#6)
  | .vfrsqs o => some (head 2#2 34#6 o.d o.x, tailV o 14#6)
  | .vfexp2 o => some (head 2#2 34#6 o.d o.x, tailV o 15#6)
  | .vcvt o => some (head 2#2 35#6 o.d o.x, tailV o 0#6)
  | .vcvts o => some (head 2#2 35#6 o.d o.x, tailV o 1#6)
  | .vqblk o => some (head 2#2 35#6 o.d o.x, tailV o 2#6)
  | .veq o => some (head 2#2 36#6 o.d o.x, tailV o 0#6)
  | .vne o => some (head 2#2 36#6 o.d o.x, tailV o 1#6)
  | .vlt o => some (head 2#2 36#6 o.d o.x, tailV o 2#6)
  | .vle o => some (head 2#2 36#6 o.d o.x, tailV o 3#6)
  | .vgt o => some (head 2#2 36#6 o.d o.x, tailV o 4#6)
  | .vge o => some (head 2#2 36#6 o.d o.x, tailV o 5#6)
  | .vfeq o => some (head 2#2 36#6 o.d o.x, tailV o 6#6)
  | .vflt o => some (head 2#2 36#6 o.d o.x, tailV o 7#6)
  | .vfle o => some (head 2#2 36#6 o.d o.x, tailV o 8#6)
  | .vfunord o => some (head 2#2 36#6 o.d o.x, tailV o 9#6)
  | .vmv o => some (head 2#2 37#6 o.d o.x, tailV o 0#6)
  | .vmvs o => some (head 2#2 37#6 o.d o.x, tailV o 1#6)
  | .vmvx o => some (head 2#2 37#6 o.d o.x, tailV o 2#6)
  | .vmerge o => some (head 2#2 37#6 o.d o.x, tailV o 3#6)
  | .vidx o => some (head 2#2 37#6 o.d o.x, tailV o 4#6)
  | .vsow o => some (head 2#2 37#6 o.d o.x, tailV o 5#6)
  | .vredsum o => some (head 2#2 38#6 o.d o.x, tailV o 0#6)
  | .vredosum o => some (head 2#2 38#6 o.d o.x, tailV o 1#6)
  | .vredmin o => some (head 2#2 38#6 o.d o.x, tailV o 2#6)
  | .vredmax o => some (head 2#2 38#6 o.d o.x, tailV o 3#6)
  | .vredand o => some (head 2#2 38#6 o.d o.x, tailV o 4#6)
  | .vredor o => some (head 2#2 38#6 o.d o.x, tailV o 5#6)
  | .vscansum o => some (head 2#2 38#6 o.d o.x, tailV o 6#6)
  | .vscanmin o => some (head 2#2 38#6 o.d o.x, tailV o 7#6)
  | .vscanmax o => some (head 2#2 38#6 o.d o.x, tailV o 8#6)
  | .vgather o => some (head 2#2 39#6 o.d o.x, tailV o 0#6)
  | .vslideup o => some (head 2#2 39#6 o.d o.x, tailV o 1#6)
  | .vslidedn o => some (head 2#2 39#6 o.d o.x, tailV o 2#6)
  | .vcompress o => some (head 2#2 39#6 o.d o.x, tailV o 3#6)
  | .vcidx o => some (head 2#2 39#6 o.d o.x, tailV o 4#6)
  | .mand d a b => some (head 1#2 40#6 d 0#3, tail16 a b 0#6)
  | .mor d a b => some (head 1#2 40#6 d 0#3, tail16 a b 1#6)
  | .mxor d a b => some (head 1#2 40#6 d 0#3, tail16 a b 2#6)
  | .mandn d a b => some (head 1#2 40#6 d 0#3, tail16 a b 3#6)
  | .mnot d a => some (head 1#2 40#6 d 0#3, tail16 a 0#5 4#6)
  | .mpopc d a => some (head 1#2 40#6 d 0#3, tail16 a 0#5 5#6)
  | .mfirst d a => some (head 1#2 40#6 d 0#3, tail16 a 0#5 6#6)
  | .mfromv d a => some (head 1#2 40#6 d 0#3, tail16 a 0#5 7#6)
  | .msetvl d a => some (head 1#2 40#6 d 0#3, tail16 a 0#5 8#6)
  | .mclr d => some (head 1#2 40#6 d 0#3, tail16 0#5 0#5 9#6)
  | .vld o => some (head 2#2 41#6 o.d o.x, tailV o 0#6)
  | .vlds o => some (head 2#2 41#6 o.d o.x, tailV o 0#6)
  | .vldx o => some (head 2#2 41#6 o.d o.x, tailV o 0#6)
  | .vldseg o n => some (head 2#2 41#6 o.d o.x, tailV o (0#3 ++ n))
  | .vldff o => some (head 2#2 41#6 o.d o.x, tailV o 0#6)
  | .vst o => some (head 2#2 42#6 o.d o.x, tailV o 0#6)
  | .vsts o => some (head 2#2 42#6 o.d o.x, tailV o 0#6)
  | .vstx o => some (head 2#2 42#6 o.d o.x, tailV o 0#6)
  | .vstseg o n => some (head 2#2 42#6 o.d o.x, tailV o (0#3 ++ n))
  | .vaadd o => some (head 2#2 43#6 o.d o.x, tailV o 0#6)
  | .vamin o => some (head 2#2 43#6 o.d o.x, tailV o 1#6)
  | .vamax o => some (head 2#2 43#6 o.d o.x, tailV o 2#6)
  | .vaor o => some (head 2#2 43#6 o.d o.x, tailV o 3#6)
  | .vxlate o => some (head 2#2 44#6 o.d o.x, tailV o 0#6)
  | .vxlateff o => some (head 2#2 44#6 o.d o.x, tailV o 0#6)
  | .vissue a c fm masked mr => some (head 2#2 45#6 0#5 0#3, tailR a 0#5 c masked mr (0#5 ++ BitVec.ofBool fm) 0#7)
  | .vallred o => some (head 2#2 46#6 o.d o.x, tailV o 0#6)
  | .vredscat o => some (head 2#2 46#6 o.d o.x, tailV o 1#6)
  | .vallgath o => some (head 2#2 46#6 o.d o.x, tailV o 2#6)
  | .vbcast o => some (head 2#2 46#6 o.d o.x, tailV o 3#6)
  | .vall2all o => some (head 2#2 46#6 o.d o.x, tailV o 4#6)
  | .gset d a b => some (head 1#2 47#6 d 0#3, tail16 a b 0#6)
  | .grank d a => some (head 1#2 47#6 d 0#3, tail16 a 0#5 1#6)
  | .gsize d a => some (head 1#2 47#6 d 0#3, tail16 a 0#5 2#6)
  | .mloadw a t => some (head 2#2 48#6 0#5 0#3, tailR a 0#5 0#5 false 0#3 0#6 (t ++ 0#3))
  | .mstream x a b c => some (head 2#2 48#6 0#5 x, tailR a b c false 0#3 1#6 0#7)
  | .mzero x b c => some (head 2#2 48#6 0#5 x, tailR 0#5 b c false 0#3 2#6 0#7)
  | .mread x d b y => some (head 2#2 48#6 d x, tailR 0#5 b 0#5 false 0#3 3#6 y)
  | .mreadPair x d b => some (head 2#2 48#6 d x, tailR 0#5 b 1#5 false 0#3 3#6 0#7)
  | .mwrite x a b t => some (head 2#2 48#6 0#5 x, tailR a b 0#5 false 0#3 4#6 (t ++ 0#3))
  | .runAheadFetch _ _ => none
  | .chunkCommit _ => none
  | .soleGrant _ => none
  | .vectorQueueExecute _ => none
  | .quantumExpiry _ => none
  | .coreResume _ => none
  | .contextRefillDone _ => none
  | .pendingRegisterCompletion _ _ _ _ => none
  | .remoteLoadAtHome _ _ _ _ _ _ => none
  | .remoteWriteAtHome _ _ _ _ _ => none
  | .amoAtHome _ _ _ _ _ _ _ _ _ => none
  | .vamoUpdateAtHome _ _ _ _ _ _ _ _ _ _ _ => none
  | .tokenSnapshot _ => none
  | .tokenRegistration _ => none
  | .tokenArmAtHome _ _ _ => none
  | .tokenSignalAtHome _ _ _ => none
  | .tokenRaiseAtHome _ _ _ => none
  | .waiterWake _ => none
  | .tokenRepoll _ => none
  | .fenceProbeEcho _ _ _ _ => none
  | .fabricFailureTimeout _ => none
  | .futureLoadAtHome _ _ _ _ => none
  | .futureStoreAtHome _ _ _ => none
  | .copyStart _ _ => none
  | .copyLockTimeout _ => none
  | .copyFaultEnd _ _ => none
  | .copyCompletion _ _ => none
  | .clipMessageRetry _ _ => none
  | .elementGroupArrival _ _ _ => none
  | .registerCopyDelivery _ _ => none
  | .xbswapRendezvous _ _ => none
  | .jobGrant _ => none
  | .planeFillComplete _ => none
  | .jobStart _ => none
  | .rowUpdate _ => none
  | .jobEnd _ => none
  | .zeroWriteRow _ => none
  | .granaryRefresh _ _ => none
  | .collectivePacket _ _ => none
  | .collectiveRetry _ _ => none
  | .collectiveMerge _ _ => none
  | .mailboxArrival _ _ _ _ _ => none
  | .spawnRequest _ => none
  | .quiescenceWatchdog _ => none
  | .pageWalk _ _ _ => none
  | .tlbinvTenant _ _ _ => none
  | .tlbinvGrexa _ _ => none
  | .tlbinvComplete _ => none
  | .qdoor _ _ _ _ => none
  | .launchTokenFiring _ _ _ => none
  | .launchEntryRead _ _ _ => none
  | .afterTokenEligible _ _ _ => none
  | .instanceBind _ _ => none
  | .slotEvict _ _ => none
  | .slotRestore _ _ => none
  | .slotRelease _ _ => none
  | .ctxbaseWrite _ _ => none
  | .l2cfgWrite _ _ => none
  | .launchQueueConfigWrite _ _ _ _ _ => none
  | .faultQueueConfigWrite _ _ _ => none
  | .mmioRegisterWrite _ _ => none
  | .tenantSwitch _ _ _ => none
  | .tenantSwitchAbandon _ => none
  | .tenantReset _ _ => none
  | .hostBar2Write _ _ _ _ _ => none
  | .hostBar2Read _ _ _ _ => none
  | .hostAtomicOp _ _ _ _ _ _ _ => none
  | .hsigv _ _ _ => none
  | .cxlLinkFailure _ _ => none
  | .cxlWriteAckLost _ _ => none
  | .fabricPortFailure _ _ => none
  | .parkClockTick _ => none
  | .nearDwellExpiry _ _ => none
  | .farDwellExpiry _ _ => none
  | .blockMoveRegistration _ _ => none
  | .blockMoveCompletion _ _ => none
  | .contextMoveCompletion _ _ => none
  | .wakeWrite _ _ => none
  | .parkResume _ _ => none
  | .parkWaitSlotPlace _ _ => none
  | .fwreq _ _ _ => none
  | .grexaRefill _ => none
  | .grexaInsert _ => none
  | .grexaDrop _ => none
  | .blog2Write _ _ _ => none
  | .patrolScrub _ => none
  | .snaptrig _ => none
  | .snapshotLatch _ => none
  | .coreReset _ => none
  | .clusterReset _ => none
  | .dieReset _ => none
  | .warmModuleReset _ => none
  | .coldModuleReset _ => none
  | .attestationRequest _ _ _ => none
  | .thermalThrottle _ => none
  | .thermalShutdown _ => none
  | .powerCapSet _ _ => none
  | .grexaImageStage _ _ => none
  | .illegalInstruction _ _ => none
  | .granaryRefreshEnd _ _ => none
  | .spillComplete _ => none
  | .postedWriteAcknowledged _ _ _ => none
  | .grexaReplyRetry _ => none
  | .distributorRegistrationRetry _ _ _ => none
  | .dataPrefetch _ _ _ => none
  | .tenantConfiguration _ _ _ => none
  | .i3cDynamicAddress _ _ => none

/-! ### Lines -/

/-- Byte n of a line; a line of fewer bytes reads as zero beyond its end. -/
def lineByte (line : List Byte) (n : Nat) : Byte := line.getD n 0#8

/-- The little-endian number in n bytes of a line from offset k (R5). -/
def lineNat (line : List Byte) (k : Nat) : Nat → Nat
  | 0 => 0
  | n + 1 => (lineByte line k).toNat + 256 * lineNat line (k + 1) n

/-- Head i of a line, i from 1; head 0 is the line-control head (R12). -/
def lineHead (line : List Byte) (i : Nat) : BitVec 16 := BitVec.ofNat 16 (lineNat line (2 * i) 2)

/-- HC, the head count n of a line (R13). -/
def lineCount (line : List Byte) : Nat := (lineHead line 0).toNat / 2048

/-- S(i), the tail bytes of heads 1 to i, from their TL fields exactly as written (R12, R14). -/
def lineTails (line : List Byte) : Nat → Nat
  | 0 => 0
  | i + 1 => lineTails line i + tailBytes (lineHead line (i + 1))

/-- The line is well formed (R14). -/
def lineWf (line : List Byte) : Bool :=
  lineCount line != 0 && (lineHead line 0).toNat % 2048 == 0 &&
    2 + 2 * lineCount line + lineTails line (lineCount line) ≤ 64

/-- The tail of head i: T(i) bytes from byte 64 - S(i), zero-extended (R12). -/
def lineTail (line : List Byte) (i : Nat) : Word :=
  BitVec.ofNat 64 (lineNat line (64 - lineTails line i) (tailBytes (lineHead line i)))

/-- Head i of a line as an instruction. -/
def decodeAt (line : List Byte) (i : Nat) : Except Reject Instr :=
  if !lineWf line || i == 0 || lineCount line < i then .error .illegalLine
  else decode (lineHead line i) (lineTail line i)

/-! ### Packing (R29, R33, R34) -/

/-- LI with the tail length that its value asks for (R29). -/
def liOf (d : Reg) (v : Word) : Instr :=
  if (v.setWidth 32).signExtend 64 = v then .liW d (v.setWidth 32) else .liD d v

/-- A statement of the text section as packing meets it (R31, R33). -/
inductive Place where
  | ins (i : Instr)
  /-- .line, .kernel, .endk, and a switch of section: the open line is closed. -/
  | line
  | align (e : Nat)
  deriving DecidableEq, Repr

/-- The low n bytes of a number, lowest first (R5). -/
def lowBytes (v : Word) : Nat → List Byte
  | 0 => []
  | n + 1 => v.setWidth 8 :: lowBytes (v >>> 8) n

/-- A line closed with its heads and tails: the control head, the heads, the gap, and the tails from the line's end (R12, R34). -/
def lineOf (hs : List (BitVec 16 × Word)) : List Byte :=
  let front := lowBytes (BitVec.ofNat 64 (hs.length * 2048)) 2 ++ hs.flatMap fun x => lowBytes (x.1.setWidth 64) 2
  let back := (hs.reverse).flatMap fun x => lowBytes x.2 (tailBytes x.1)
  front ++ List.replicate (64 - front.length - back.length) 0#8 ++ back

/-- One more head fits the open line (R33). -/
def joins (hs : List (BitVec 16 × Word)) (h : BitVec 16) : Bool :=
  let s := (hs.map fun x => tailBytes x.1).sum
  hs.length + 1 ≤ 31 && 2 + 2 * (hs.length + 1) + s + tailBytes h ≤ 64

/-- The open line, where there is one. -/
def closed : List (BitVec 16 × Word) → List (List Byte)
  | [] => []
  | hs => [lineOf hs]

/-- The lines of a text section from an address on, with the heads of the open line: instructions in their order, never
moved; an alignment skips whole NOP lines (R33, R34). What has no words is no instruction of a program. -/
def pack (base : Nat) (hs : List (BitVec 16 × Word)) : List Place → List (List Byte)
  | [] => closed hs
  | .line :: r => closed hs ++ pack (base + 64 * (closed hs).length) [] r
  | .align e :: r =>
    let now := base + 64 * (closed hs).length
    let next := (now + e - 1) / e * e
    closed hs ++ List.replicate ((next - now) / 64) (lineOf [(0, 0)]) ++ pack next [] r
  | .ins i :: r =>
    match encode i with
    | none => pack base hs r
    | some w => if joins hs w.1 then pack base (hs ++ [w]) r else closed hs ++ pack (base + 64 * (closed hs).length) [w] r

/-! ### The words of the opcode table as lines -/

/-- Byte k of a line that holds one instruction, its head in the low 16 bits of w and its tail above them. -/
def tableByte (w k : Nat) : Byte :=
  let n := tailBytes (BitVec.ofNat 16 w)
  if k = 1 then 0x08#8
  else if k = 2 then BitVec.ofNat 8 w
  else if k = 3 then BitVec.ofNat 8 (w >>> 8)
  else if 64 - n ≤ k ∧ k < 64 then BitVec.ofNat 8 (w >>> (16 + 8 * (k - (64 - n))))
  else 0#8

/-- The line that holds one instruction of the opcode table: HC = 1, head 1, and its tail at the line's end (R12). -/
def tableLine (w : Nat) : List Byte := (List.range 64).map (tableByte w)

/-- What the decoder reads from an opcode-table word; the bits above nbits are zero, and TL says how long the tail is. -/
def decodeTableWord (nbits w : Nat) : Option Instr :=
  (decodeAt (tableLine (w % 2 ^ nbits)) 1).toOption

end Sys2Proof
end

