-- ==== Sys2Proof/Config.lean ====
section
/-!
DEFINITION. What an implementation fixes and the manual leaves open: constants without a body, so that no
proof can see their value and a claim is true whatever it is.
-/

namespace Sys2Proof.Config

/-- Core cycles that pass in a step beyond the first, drawn from the cycles elapsed (R382, DESIGN CHOICE, log 6). -/
opaque extraCycles : Nat → Nat

/-- The two fixed hashes that choose a line's bits of the 2,048-bit read signature (R249, DESIGN CHOICE, log 11). -/
opaque sigHash : Nat → BitVec 11 × BitVec 11

/-- log2 of the ways of an L1 set, which R2 and R253 do not give: sets and ways together hold 8,192 lines (DESIGN CHOICE, log 12). -/
opaque l1WaysLog : Fin 14

/-- A number of a 128-byte line, of which the remainder by the number of L1 sets is the set that the line falls in (R253, DESIGN CHOICE, log
12). -/
opaque l1Set : Nat → Nat

/-- The set of a cluster's TLB that an entry of an ASID, a page size and a virtual page falls in (R304, DESIGN CHOICE, log 8). -/
opaque tlbSet : BitVec 14 → Nat → Nat → BitVec 10

/-- What a host read of a codeword with an uncorrectable error, or of bytes that another package refuses, returns of a
byte's address: R334 states no value (DESIGN CHOICE, log 40). -/
opaque hostErrorByte : Nat → Byte

/-- The ADDR of the memory error record of a context in the context cache, for a core and slot: R368 states none (DESIGN CHOICE, log 42). -/
opaque cacheErrorAddress : Nat → Nat → Word

/-- The ADDR of the memory error record of an accumulator entry, for a cluster and row: R368 states none (DESIGN CHOICE, log 42). -/
opaque accumulatorErrorAddress : Nat → Nat → Word

/-- The ADDR of the memory error record of a contribution in a collective buffer, for a core and a rank: R368 states none (DESIGN CHOICE,
log 42). -/
opaque bufferErrorAddress : Nat → Nat → Word

/-- The device serial number of a package (R376, DESIGN CHOICE, log 18). -/
opaque deviceId : Nat → BitVec 128

/-- SHA-512 as the boot ROM and Grexa compute it (R374, R376, DESIGN CHOICE, log 18). -/
opaque sha512 : List Byte → BitVec 512

/-- Whether an Ed25519 signature over a digest verifies against the Tabesh key whose hash is fused: key hash, digest, signature
(R374, DESIGN CHOICE, log 18). -/
opaque ed25519Verify : BitVec 256 → BitVec 512 → BitVec 512 → Bool

/-- The bytes of a field of a tenant's configuration, by its place in R311's list and its contents as numbers, over which the measurement of
the tenant is taken: the spec gives the fields and their order and no layout (R376, DESIGN CHOICE, log 18). -/
opaque fieldBytes : Nat → List Nat → List Byte

/-- What the snapshot registers hold when a trigger latches them: R372 does not say what they track (DESIGN CHOICE, log 41). -/
opaque snapshotImage : Nat → Nat → List Byte

/-- gphase of a die where elapsed is 0, for each boot of its package (R185, DESIGN CHOICE, log 7). -/
opaque gphaseBase : Nat → Nat → Nat

/-- The Ed25519 signature that the identity key of a package makes over a report (R375, R376, DESIGN CHOICE, log 18). -/
opaque ed25519Sign : Nat → List Byte → BitVec 512

end Sys2Proof.Config
end

