-- ==== Sys2Proof/Machine/Event.lean ====
section
/-!
DEFINITION. The events of the other agents as data that State holds while they are under way: one constructor for each
event of Instr, with the same name and fields. (Perform.lean gives each the meaning of its constructor of Instr.)
-/

namespace Sys2Proof.Machine

/-- An event that has been started, or that the agenda brings from outside, and is not performed yet. -/
inductive Event where
  /-- RUN_AHEAD_FETCH (R15). -/
  | runAheadFetch (g : CoreId) (va : Word)
  /-- CHUNK_COMMIT (R247). -/
  | chunkCommit (g : CoreId)
  /-- SOLE_GRANT (R252). -/
  | soleGrant (pkg : Nat)
  /-- VECTOR_QUEUE_EXECUTE (R118). -/
  | vectorQueueExecute (g : CoreId)
  /-- QUANTUM_EXPIRY (R205). -/
  | quantumExpiry (g : CoreId)
  /-- CORE_RESUME (R206). -/
  | coreResume (g : CoreId)
  /-- CONTEXT_REFILL_DONE (R201). -/
  | contextRefillDone (g : CoreId)
  /-- PENDING_REGISTER_COMPLETION (R199). -/
  | pendingRegisterCompletion (who : Who) (r : Reg) (val : Word) (bad : Option Word)
  /-- REMOTE_LOAD_AT_HOME (R261). -/
  | remoteLoadAtHome (who : Who) (r : Reg) (segs : List (Nat × Nat × List Byte)) (signed : Bool) (ea : Word) (tenant : BitVec 6)
  /-- REMOTE_WRITE_AT_HOME (R262). -/
  | remoteWriteAtHome (who : Who) (pa : Pa) (bytes : Nat) (val : Nat) (q : Req)
  /-- AMO_AT_HOME (R99). -/
  | amoAtHome (who : Who) (r : Reg) (pa : Pa) (f : BitVec 6) (dbl : Bool) (op cmp ea : Word) (q : Req)
  /-- VAMO_UPDATE_AT_HOME (R145). -/
  | vamoUpdateAtHome (who : Who) (id : Nat) (pa : Pa) (f : BitVec 6) (t : BitVec 4) (val : Nat) (rm : BitVec 3) (seed sbase : Word) (idx : Nat) (q : Req)
  /-- TOKEN_SNAPSHOT (R230). -/
  | tokenSnapshot (who : Who)
  /-- TOKEN_REGISTRATION (R230). -/
  | tokenRegistration (who : Who)
  /-- TOKEN_ARM_AT_HOME (R225). -/
  | tokenArmAtHome (sender : Sender) (pa : Pa) (op : Word)
  /-- TOKEN_SIGNAL_AT_HOME (R225). -/
  | tokenSignalAtHome (sender : Sender) (pa : Pa) (amount : Int)
  /-- TOKEN_RAISE_AT_HOME (R225). -/
  | tokenRaiseAtHome (sender : Sender) (pa : Pa) (amount : Int)
  /-- WAITER_WAKE (R231). -/
  | waiterWake (who : Who)
  /-- TOKEN_REPOLL (R232). -/
  | tokenRepoll (who : Who)
  /-- FENCE_PROBE_ECHO (R107). -/
  | fenceProbeEcho (who : Who) (r : Reg) (pkg : Nat) (bit : Nat)
  /-- FABRIC_FAILURE_TIMEOUT (R339). -/
  | fabricFailureTimeout (n : Nat)
  /-- FUTURE_LOAD_AT_HOME (R234). -/
  | futureLoadAtHome (who : Who) (r : Reg) (pa : Pa) (q : LoadReq)
  /-- FUTURE_STORE_AT_HOME (R234). -/
  | futureStoreAtHome (who : Who) (pa : Pa) (q : StoreReq)
  /-- COPY_START (R238). -/
  | copyStart (cl : Nat) (id : Nat)
  /-- COPY_LOCK_TIMEOUT (R239). -/
  | copyLockTimeout (g : CoreId)
  /-- COPY_FAULT_END (R240). -/
  | copyFaultEnd (cl : Nat) (id : Nat)
  /-- COPY_COMPLETION (R241). -/
  | copyCompletion (cl : Nat) (id : Nat)
  /-- CLIP_MESSAGE_RETRY (R241). -/
  | clipMessageRetry (cl : Nat) (id : Nat)
  /-- ELEMENT_GROUP_ARRIVAL (R243). -/
  | elementGroupArrival (cl : Nat) (id : Nat) (grp : Nat)
  /-- REGISTER_COPY_DELIVERY (R245). -/
  | registerCopyDelivery (cl : Nat) (id : Nat)
  /-- XBSWAP_RENDEZVOUS (R283). -/
  | xbswapRendezvous (cl : Nat) (id : Nat)
  /-- JOB_GRANT (R183). -/
  | jobGrant (cl : Nat)
  /-- PLANE_FILL_COMPLETE (R184). -/
  | planeFillComplete (cl : Nat)
  /-- JOB_START (R184). -/
  | jobStart (cl : Nat)
  /-- ROW_UPDATE (R184). -/
  | rowUpdate (cl : Nat)
  /-- JOB_END (R184). -/
  | jobEnd (cl : Nat)
  /-- ZERO_WRITE_ROW (R179). -/
  | zeroWriteRow (cl : Nat)
  /-- GRANARY_REFRESH (R185). -/
  | granaryRefresh (die : Nat) (bank : Nat)
  /-- COLLECTIVE_PACKET (R277). -/
  | collectivePacket (dst : BitVec 32) (p : Packet)
  /-- COLLECTIVE_RETRY (R277). -/
  | collectiveRetry (dst : BitVec 32) (p : Packet)
  /-- COLLECTIVE_MERGE (R276). -/
  | collectiveMerge (g : CoreId) (id : Nat)
  /-- MAILBOX_ARRIVAL (R220). -/
  | mailboxArrival (dst : BitVec 32) (m : Msg) (who : Who) (r : Reg) (tenant : BitVec 6)
  /-- SPAWN_REQUEST (R213). -/
  | spawnRequest (q : SpawnReq)
  /-- QUIESCENCE_WATCHDOG (R221). -/
  | quiescenceWatchdog (g : CoreId)
  /-- PAGE_WALK (R305). -/
  | pageWalk (g : CoreId) (asid : BitVec 14) (va : Word)
  /-- TLBINV_TENANT (R306). -/
  | tlbinvTenant (pkg : Nat) (t : BitVec 6) (pa : Pa)
  /-- TLBINV_GREXA (R306). -/
  | tlbinvGrexa (pkg : Nat) (pa : Pa)
  /-- TLBINV_COMPLETE (R307). -/
  | tlbinvComplete (pkg : Nat)
  /-- QDOOR (R315). -/
  | qdoor (pkg : Nat) (t : BitVec 6) (q : BitVec 4) (val : BitVec 32)
  /-- LAUNCH_TOKEN_FIRING (R316). -/
  | launchTokenFiring (pkg : Nat) (t : BitVec 6) (q : BitVec 4)
  /-- LAUNCH_ENTRY_READ (R319). -/
  | launchEntryRead (pkg : Nat) (t : BitVec 6) (q : BitVec 4)
  /-- AFTER_TOKEN_ELIGIBLE (R321). -/
  | afterTokenEligible (pkg : Nat) (t : BitVec 6) (q : BitVec 4)
  /-- INSTANCE_BIND (R323). -/
  | instanceBind (pkg : Nat) (t : BitVec 6)
  /-- SLOT_EVICT (R203). -/
  | slotEvict (g : CoreId) (slot : BitVec 8)
  /-- SLOT_RESTORE (R326). -/
  | slotRestore (g : CoreId) (slot : BitVec 8)
  /-- SLOT_RELEASE (R326). -/
  | slotRelease (g : CoreId) (slot : BitVec 8)
  /-- CTXBASE_WRITE (R326). -/
  | ctxbaseWrite (g : CoreId) (val : Word)
  /-- L2CFG_WRITE (R327). -/
  | l2cfgWrite (cl : Nat) (val : Word)
  /-- LAUNCH_QUEUE_CONFIG_WRITE (R314). -/
  | launchQueueConfigWrite (pkg : Nat) (t : BitVec 6) (q : BitVec 4) (off : BitVec 6) (val : Word)
  /-- FAULT_QUEUE_CONFIG_WRITE (R313). -/
  | faultQueueConfigWrite (pkg : Nat) (t : BitVec 6) (val : Word)
  /-- MMIO_REGISTER_WRITE (R299). -/
  | mmioRegisterWrite (place : RegPlace) (val : Word)
  /-- TENANT_SWITCH (R328). -/
  | tenantSwitch (cl : Nat) (t : BitVec 6) (ld : ClusterLoad)
  /-- TENANT_SWITCH_ABANDON (R328). -/
  | tenantSwitchAbandon (cl : Nat)
  /-- TENANT_RESET (R311). -/
  | tenantReset (pkg : Nat) (t : BitVec 6)
  /-- HOST_BAR2_WRITE (R334). -/
  | hostBar2Write (pkg : Nat) (t : BitVec 6) (off : BitVec 36) (bytes : Nat) (val : Nat)
  /-- HOST_BAR2_READ (R334). -/
  | hostBar2Read (pkg : Nat) (t : BitVec 6) (place : BarPlace) (bytes : Nat)
  /-- HOST_ATOMIC_OP (R334). -/
  | hostAtomicOp (pkg : Nat) (t : BitVec 6) (off : BitVec 36) (op : BitVec 2) (bytes : Nat) (val cmp : Word)
  /-- HSIGV (R333). -/
  | hsigv (pkg : Nat) (t : BitVec 6) (val : BitVec 32)
  /-- CXL_LINK_FAILURE (R337). -/
  | cxlLinkFailure (pkg : Nat) (port : BitVec 1)
  /-- CXL_WRITE_ACK_LOST (R337). -/
  | cxlWriteAckLost (pkg : Nat) (pa : Pa)
  /-- FABRIC_PORT_FAILURE (R338). -/
  | fabricPortFailure (pkg : Nat) (port : BitVec 7)
  /-- PARK_CLOCK_TICK (R348). -/
  | parkClockTick (pkg : Nat)
  /-- NEAR_DWELL_EXPIRY (R348). -/
  | nearDwellExpiry (pkg : Nat) (e : Nat)
  /-- FAR_DWELL_EXPIRY (R348). -/
  | farDwellExpiry (pkg : Nat) (e : Nat)
  /-- BLOCK_MOVE_REGISTRATION (R349). -/
  | blockMoveRegistration (pkg : Nat) (e : Nat)
  /-- BLOCK_MOVE_COMPLETION (R349). -/
  | blockMoveCompletion (pkg : Nat) (e : Nat)
  /-- CONTEXT_MOVE_COMPLETION (R349). -/
  | contextMoveCompletion (pkg : Nat) (e : Nat)
  /-- WAKE_WRITE (R350). -/
  | wakeWrite (pa : Pa) (val : Word)
  /-- PARK_RESUME (R351). -/
  | parkResume (pkg : Nat) (e : Nat)
  /-- PARK_WAIT_SLOT_PLACE (R351). -/
  | parkWaitSlotPlace (pkg : Nat) (t : BitVec 6)
  /-- FWREQ (R347). -/
  | fwreq (pkg : Nat) (t : BitVec 6) (pa : Pa)
  /-- GREXA_REFILL (R356). -/
  | grexaRefill (pkg : Nat)
  /-- GREXA_INSERT (R357). -/
  | grexaInsert (pkg : Nat)
  /-- GREXA_DROP (R357). -/
  | grexaDrop (pkg : Nat)
  /-- BLOG2_WRITE (R354). -/
  | blog2Write (pkg : Nat) (t : BitVec 6) (val : Word)
  /-- PATROL_SCRUB (R369). -/
  | patrolScrub (pa : Pa)
  /-- SNAPTRIG (R373). -/
  | snaptrig (pkg : Nat)
  /-- SNAPSHOT_LATCH (R372). -/
  | snapshotLatch (pkg : Nat)
  /-- CORE_RESET (R378). -/
  | coreReset (g : CoreId)
  /-- CLUSTER_RESET (R378). -/
  | clusterReset (cl : Nat)
  /-- DIE_RESET (R378). -/
  | dieReset (die : Nat)
  /-- WARM_MODULE_RESET (R378). -/
  | warmModuleReset (pkg : Nat)
  /-- COLD_MODULE_RESET (R378). -/
  | coldModuleReset (pkg : Nat)
  /-- ATTESTATION_REQUEST (R376). -/
  | attestationRequest (pkg : Nat) (tenant : BitVec 32) (nonce : BitVec 256)
  /-- THERMAL_THROTTLE (R377). -/
  | thermalThrottle (pkg : Nat)
  /-- THERMAL_SHUTDOWN (R377). -/
  | thermalShutdown (pkg : Nat)
  /-- POWER_CAP_SET (R377). -/
  | powerCapSet (pkg : Nat) (watts : Nat)
  /-- GREXA_IMAGE_STAGE (R379). -/
  | grexaImageStage (pkg : Nat) (im : Image)
  /-- ILLEGAL_INSTRUCTION (R83). -/
  | illegalInstruction (head : BitVec 16) (tail : Word)
  /-- GRANARY_REFRESH_END (R185). -/
  | granaryRefreshEnd (die : Nat) (bank : Nat)
  /-- SPILL_COMPLETE (R201). -/
  | spillComplete (g : CoreId)
  /-- POSTED_WRITE_ACKNOWLEDGED (R264). -/
  | postedWriteAcknowledged (who : Who) (pkg : Nat) (ack : Ack)
  /-- GREXA_REPLY_RETRY (R356). -/
  | grexaReplyRetry (pkg : Nat)
  /-- DISTRIBUTOR_REGISTRATION_RETRY (R380). -/
  | distributorRegistrationRetry (pkg : Nat) (t : BitVec 6) (q : BitVec 4)
  /-- DATA_PREFETCH (R309). -/
  | dataPrefetch (g : CoreId) (va : Word) (outcome : BitVec 2)
  /-- TENANT_CONFIGURATION (R311). -/
  | tenantConfiguration (pkg : Nat) (t : BitVec 6) (cfg : TenantCfg)
  /-- I3C_DYNAMIC_ADDRESS (R379). -/
  | i3cDynamicAddress (pkg : Nat) (addr : BitVec 7)
  deriving DecidableEq, Repr

end Sys2Proof.Machine
end

