-- ==== Sys2Proof/Machine/State.lean ====
section
/-!
DEFINITION. What the Lahild G9 holds (INVENTORY.md, State): a pod of packages as plain data, the reasons a step
can stop, and the state after reset. Tables are lists of (key, value); a key that is not listed has the reset value.
-/

namespace Sys2Proof.Machine

/-- Reasons a step stops with a fault: none. Every instruction and event of the spec has an effect. -/
inductive Fault where
  deriving DecidableEq, Repr

/-- Reasons an instruction has no meaning. -/
inductive Refusal where
  /-- Raised by exec's arms for an instruction that is not modelled yet; no arm raises it now. Safe. -/
  | notModelled (mnemonic : String)
  deriving DecidableEq, Repr

/-- The two modes of a coroutine (R72). -/
inductive Mode where
  | user | kernel
  deriving DecidableEq, Repr

/-- The states of a slot (R194). -/
inductive SlotState where
  | free | running | signalled | suspended | spilled | refilling | evicted | halted
  deriving DecidableEq, Repr

/-- What a coroutine awaits, with what the quiescence record shows of it (R209, R221): the token word, the generation that
its registration carries and the address as the program gave it. -/
inductive Wait where
  | nothing
  | register (r : Reg)
  | count (pa : Pa) (gen : BitVec 16) (va : Word)
  | generation (pa : Pa) (gen : BitVec 16) (va : Word)
  | batches (n : Nat)
  | cell (n : Nat)
  | highWater (pa : Pa) (gen : BitVec 16) (va : Word)
  /-- A running SETVLHW asks for its snapshot: its token, and its destination, shape, type and avl (R114). -/
  | strip (pa : Pa) (va : Word) (d : Reg) (dc : BitVec 2) (t : BitVec 4) (avl : Word)
  /-- The registration met an uncorrectable error: cause 8 follows the resume (R380). -/
  | failed (va : Word)
  deriving DecidableEq, Repr

/-- A group register (R268), with the count of XBSWAPs issued on it (R283). -/
structure Grp where
  table : Word
  seq   : BitVec 16
  valid : Bool
  rank  : BitVec 12
  size  : BitVec 13
  swaps : Nat
  deriving DecidableEq, Repr

/-- An element group of a vector register that a copy, a delivery, a collective or a matrix read has yet to write (R118, R276). -/
structure Pend where
  id  : Nat
  reg : Nat
  grp : Nat
  deriving DecidableEq, Repr

/-- What a VXLATE that has begun has read of its block table: LEN, LPB, LBP, NENT, and entries by number (R148, R150). -/
structure TableRead where
  len     : Nat
  lpb     : Nat
  lbp     : Nat
  nent    : Nat
  entries : List (Nat × Word)
  deriving DecidableEq, Repr

/-- The registers of a coroutine that a squash restores (R67, R74, R250). -/
structure Co where
  s       : Vector Word 32
  pend    : BitVec 32
  marks   : List (Nat × Word)
  v       : List Host.Cell
  m       : Vector (BitVec 65536) 8
  g       : Vector Grp 8
  pc      : Word
  /-- The sequential successor of the head that was fetched last (R20). -/
  next    : Word
  mode    : Mode
  vl      : BitVec 17
  vtype   : BitVec 6
  vstart  : BitVec 17
  istate  : BitVec 17
  fmode   : BitVec 13
  seed    : Word
  sbase   : Word
  stage   : BitVec 4
  cls     : BitVec 2
  ceil    : BitVec 2
  quantum : BitVec 32
  lstate  : Word
  lfrz    : Bool
  lbad    : Bool
  lpend   : Bool
  tvec    : Word
  epc     : Word
  ecause  : BitVec 6
  etval   : Word
  estatPm : Bool
  info    : BitVec 58
  cid     : BitVec 32
  asid    : BitVec 14
  tenant  : BitVec 6
  done    : Word
  grant   : Bool
  /-- The element at which a vector instruction that its chunk's limits have split goes on (R142, R166), and the block table as far as
  it has read it (R150). -/
  cont    : Nat
  table   : Option TableRead
  deriving DecidableEq, Repr

/-- A batch of copies: how many have not completed yet (R246). -/
structure Batch where
  id   : Nat
  left : Nat
  deriving DecidableEq, Repr

/-- A combining atomic whose updates are under way: its register, those not acknowledged, the bytes performed, an error met (R146). -/
structure Vamo where
  id    : Nat
  reg   : Reg
  left  : Nat
  bytes : Nat
  bad   : Bool
  deriving DecidableEq, Repr

/-- What belongs to a coroutine and no squash restores: it changes only at commits and completions. -/
structure Ext where
  /-- Package and slice mask of each entry of the touched set (R263). -/
  touched  : List (Nat × BitVec 64)
  wide     : Bool
  /-- The instruction that stops has ended its chunk, which has committed, and waits (R199, R205, R210, R342). -/
  ended    : Bool
  /-- The numbers of the posted writes not yet acknowledged, and the packages of lost ones (R107, R264). -/
  unacked  : List Nat
  lost     : List Nat
  /-- Probes that a FENCE.pod waits for (package, bit), once it has sent them (R107). -/
  fence    : Option (List (Nat × Nat))
  /-- A FENCET's register, the probes it waits for and the package that failed (R107). -/
  fencets  : List (Reg × List (Nat × Nat) × Option Nat)
  openB    : Option Batch
  sealedB  : List Batch
  squashes : Nat
  sole     : Bool
  chunks   : Nat
  badRegs  : List (Nat × Nat)
  /-- Element groups pending, masks pending, and element groups pending from a collective (R118, R276, R278). -/
  vpend    : List Pend
  cpend    : List Pend
  mpend    : BitVec 8
  vamos    : List Vamo
  deriving DecidableEq, Repr

/-- A slot of a core (R194, R195, R200, R203). -/
structure Slot where
  st    : SlotState
  gen   : Nat
  co    : Co
  ext   : Ext
  /-- A full context, its live mask, its size in bytes, and whether it lies in the save area (R197, R198, R201). -/
  full  : Bool
  live  : Word
  size  : Nat
  inMem : Bool
  /-- When it was last saved or signalled (R201), and its turn in the resume order of its class (R206). -/
  stamp : Nat
  turn  : Nat
  wait  : Wait
  /-- Head of the await, for the overrun check at resume (R210). -/
  head  : Word
  /-- A condition came to hold while evicted (R203). -/
  signalled : Bool
  /-- The context as it was saved into the context cache holds an uncorrectable error (R365, R366). -/
  cacheError : Bool
  deriving DecidableEq, Repr

/-- A store, AMO or atomic of a chunk that is posted to its home at the commit (R85, R143, R261). -/
structure Post where
  ev  : Event
  pkg : Nat
  pa  : Pa
  len : Nat
  deriving DecidableEq, Repr

/-- The weight descriptor of a core (R176, R177). -/
structure Weights where
  pa     : Pa
  t      : BitVec 4
  scales : List (BitVec 32)
  cid    : BitVec 32
  va     : Word
  asid   : BitVec 14
  deriving DecidableEq, Repr

/-- What a job of the matrix unit does (R178, R179). -/
inductive JobKind where
  /-- Where the activation rows lie, the descriptor, the scales of f8 rows; the bytes of its locked sources that were not zero at its
  registration (R187): of the activation rows and, where the tile lies in a scratchpad, of the tile, by their offsets. -/
  | stream (rows : List (Nat × Nat)) (w : Weights) (acts : List (BitVec 32)) (data : List Host.Cell) (tile : Option (List Host.Cell))
  | zero
  /-- The row's new entries. -/
  | write (row : List (Nat × BitVec 80))
  deriving DecidableEq, Repr

/-- A job in a core's queue or in the unit (R181). -/
structure Job where
  id     : Nat
  kind   : JobKind
  tile   : BitVec 3
  start  : Nat
  count  : Nat
  who    : Who
  tenant : BitVec 6
  /-- The ASID under which its rows were translated (R307, R310). -/
  asid   : BitVec 14
  deriving DecidableEq, Repr

/-- A packet buffered at a core, and a collective of its running coroutine (R276, R277). -/
structure Collective where
  id     : Nat
  who    : Who
  tenant : BitVec 6
  reg    : Reg
  form   : Nat
  table  : Word
  seq    : BitVec 16
  rank   : Nat
  size   : Nat
  t      : BitVec 4
  op     : BitVec 3
  dst    : Reg
  len    : Nat
  vtype  : BitVec 6
  active : List Nat
  own    : List (Nat × Nat)
  dests  : List (Nat × Nat)
  mask   : BitVec 3
  members : List (BitVec 32)
  /-- fmode.RM, seed and sbase at its issue. -/
  rm     : Nat
  seed   : Word
  sbase  : Word
  /-- Packets taken in. -/
  got    : List Packet
  /-- Ranks found unreachable, fused off, freed or outside the tenant (R275). -/
  gone   : List Nat
  /-- Rows have been assigned and the senders told (R278). -/
  replied : Bool
  done   : Bool
  /-- The token register has been completed. -/
  told   : Bool
  deriving DecidableEq, Repr

/-- A copy descriptor (R235). -/
structure Desc where
  src   : Word
  dst   : Word
  les   : Nat
  ndim  : Nat
  flags : Nat
  ctgt  : Nat
  token : Word
  count : List Nat
  sstr  : List Word
  dstr  : List Word
  lo    : List Nat
  hi    : List Nat
  start : List Nat
  deriving DecidableEq, Repr

/-- The sides of a descriptor's copy: plain memory, or a register image of its bytes (R243). -/
structure Sides where
  kind  : Nat
  vreg  : Nat
  /-- The source image, for CPYVS. -/
  image : Option (List Byte)
  /-- The destination image's size, for CPYVL. -/
  size  : Option Nat
  deriving DecidableEq, Repr

/-- What a copy command registers at its commit (R238). -/
inductive CopyCommand where
  /-- CPY, CPYVL and CPYVS: the descriptor and its sides. -/
  | described (d : Desc) (x : Sides)
  /-- CPYRR: the first destination register, the groups and the destination. -/
  | registers (vreg : Nat) (groups : List (Nat × Nat × List Byte)) (dst : BitVec 32)
  /-- CPYVG: the destination register, the group register, the address, and vl with the bytes copied. -/
  | group (vreg : Nat) (g : Grp) (va : Word) (vl : BitVec 17) (n : Nat)
  /-- XBSWAP: the group register, the base, the length and p, es and q. -/
  | swap (g : Grp) (base : Word) (len p es q : Nat)
  deriving DecidableEq, Repr

/-- What an instruction that ends its chunk does at the commit point, besides what the chunk holds (R85, R238, R246, R250). -/
inductive After where
  /-- A request is sent to the home of an address, or a message or a spawn on its way. -/
  | request (pa : Pa) (e : Event)
  | message (e : Event)
  | spawn (q : SpawnReq)
  /-- TARMC, TSIGC and TPOLLC (R226). -/
  | armCell (n : Nat) (op : Word)
  | signalCell (pa : Pa) (amount : Int)
  | pollCell (d : Reg) (n : Nat)
  /-- MRECV takes the oldest message, or finds none, and MHAND sets the handler (R219). -/
  | takeMessage (m : Option Msg)
  | handler (h : Option (BitVec 32 × Nat))
  /-- SNAP and CSEAL (R111, R246). -/
  | trigger
  | seal
  /-- BALLOC and BFREE (R354). -/
  | balloc (d : Reg)
  | bfree (a : Nat)
  /-- MLOADW, MSTREAM with its rows and scales, MZERO and MWRITE with its source not yet read (R175). -/
  | weights (w : Weights)
  | stream (x : BitVec 3) (start count : Nat) (w : Weights) (rows : List (Pa × Nat)) (acts : List (BitVec 32))
  | job (kind : JobKind) (x : BitVec 3) (start count : Nat)
  /-- MREAD's row is read, and MWRITE's source, in the vector queue (R193). -/
  | read
  /-- A collective starts (R272). -/
  | collective (c : Collective)
  /-- A copy with its number, register and command, and CPYB's descriptors by their places (R238, R244). -/
  | copy (id : Nat) (d : Reg) (c : CopyCommand)
  | copies (d : Reg) (l : List (Nat × Desc))
  deriving DecidableEq, Repr

/-- A chunk that has not committed (R247 to R253). -/
structure Chunk where
  start  : Co
  /-- Speculative bytes over committed memory, in the memory's own form. -/
  writes : List Host.Cell
  /-- Distinct 128-byte lines read and written. -/
  reads  : List Nat
  wrote  : List Nat
  /-- Eight-byte writes to aligned doublewords in program order, for the wake watches (R350). -/
  whole  : List (Pa × Word)
  heads  : Nat
  vmem   : Nat
  ended  : Bool
  /-- Completions of package-scope atomics, written at the commit (R99). -/
  compl  : List (Reg × Word)
  posts  : List Post
  /-- Stores to kernel MMIO registers in program order, and loads of them with the number of stores before each (R299). -/
  mmio   : List (Pa × Word)
  mloads : List (Nat × Pa × Word)
  /-- Virtual pages translated, with the ASID (R307). -/
  pages  : List (BitVec 14 × Nat)
  /-- Bytes read in error with no trap, of which the commit posts the records (R100, R140, R366). -/
  errors : List Pa
  /-- What its last instruction does at the commit, and the registers as they stood before that instruction, where it is an MREAD or an
  MWRITE that the vector queue holds (R193, R250). -/
  after  : Option After
  back   : Option Co
  /-- Since when its registration has waited for locks (R239). -/
  since  : Option Nat
  deriving DecidableEq, Repr

/-- A vector instruction in the queue with what it captured at issue (R118). -/
structure VEntry where
  ins    : Instr
  vl     : BitVec 17
  vtype  : BitVec 6
  vstart : BitVec 17
  a      : Word
  b      : Word
  seed   : Word
  sbase  : Word
  /-- It belongs to the chunk that waits for the weir, which waits for it (R118, R250). -/
  early  : Bool
  deriving DecidableEq, Repr

/-- An instruction line in the core: its address, its 64 bytes, or none where its translation failed (R15, R308). -/
structure Line where
  va    : Word
  asid  : BitVec 14
  /-- User mode may fetch it: its page has U = 1, or it lies in the alias window (R136, R302). -/
  user  : Bool
  bytes : Option (List Byte)
  deriving DecidableEq, Repr

/-- A leaf translation in a TLB (R304). -/
structure Tlb where
  asid : BitVec 14
  /-- log2 of the page size: 16, 28 or 40. -/
  size : Nat
  vpn  : Nat
  ppn  : Nat
  x    : Bool
  w    : Bool
  rd   : Bool
  u    : Bool
  deriving DecidableEq, Repr

/-- A core (R2, R67, R74, R118, R201). -/
structure Core where
  co       : Co
  ext      : Ext
  chunk    : Chunk
  /-- The chunk that has ended and waits for its commit while the next one executes (R250). -/
  waiting  : Option Chunk
  running  : Option Nat
  slots    : List (Nat × Slot)
  vq       : List VEntry
  line     : Option Line
  ahead    : List Line
  tlb      : List Tlb
  /-- Turns handed out so far; a lower turn is nearer the front (R206). -/
  turns    : Nat
  /-- The slot that the spillway is writing out and those waiting, and the refills in order (R201). -/
  spilling : List Nat
  refills  : List Nat
  mailbox  : List Msg
  handler  : Option (BitVec 32 × Nat)
  blocks   : List Pa
  weights  : Option Weights
  jobs     : List Job
  colls    : List Collective
  packets  : List (BitVec 32 × Packet)
  /-- Prefetched lines of 128 bytes of memory; the flag says that the line has arrived (R309). -/
  prefetch : List (Nat × Bool)
  pmc      : Vector Word 16
  pmcsel   : Vector (BitVec 10) 16
  cycle0   : Nat
  wdog     : BitVec 48
  /-- Since when the core has been quiet, and its record has been posted (R221). -/
  quietAt  : Option Nat
  quiet    : Bool
  ctxbase  : BitVec 58
  busy     : Bool
  /-- The slot of the last command (R326). -/
  cmdSlot  : Option (BitVec 8)
  /-- An eviction of the running coroutine waits for its instruction boundary (R203). -/
  evicting : Bool
  deriving DecidableEq, Repr

/-- What a copy has yet to move (R236 to R240, R310): the space that it acts in; memory and the register image as they stood at its
registration; the elements not moved yet, in order, with their sizes; the destination of every one; whether it writes a register
image; FLAGS.GRAN and PREF; and a group register whose table it has yet to read (R245, R281). -/
structure Work where
  asid  : BitVec 14
  mode  : Mode
  mem   : List Host.Cell
  image : Option (List Byte)
  todo  : List (Word × Word × Nat)
  dests : List (Word × Nat)
  into  : Bool
  gran  : Bool
  pref  : Bool
  group : Option Grp
  deriving DecidableEq, Repr

/-- An XBSWAP's exchange (R281 to R283): the group's table, its number among the XBSWAPs of the group register, the
partner, the shape, what it sends (partner's element, bytes) and where its own incoming elements lie. -/
structure Swap where
  table : Word
  num   : Nat
  partner : BitVec 32
  q     : Nat
  p     : Nat
  es    : Nat
  m     : Nat
  send  : List (Nat × List Byte)
  places : List (Nat × List Pa)
  deriving DecidableEq, Repr

/-- A copy, register delivery or exchange between its registration and its completion (R236 to R245, R281). -/
structure Copy where
  id     : Nat
  /-- The major opcode and X: 0 CPY and CPYB, 1 CPYVL, 2 CPYVS, 3 CPYRR, 4 CPYVG, 5 XBSWAP. -/
  kind   : Nat
  who    : Who
  cid    : BitVec 32
  tenant : BitVec 6
  reg    : Reg
  status : Nat
  /-- What it has yet to move (R238). -/
  work   : Option Work
  /-- Bytes to be written in order with their addresses; for CPYVL their offsets in the register image. -/
  writes : List (Nat × Byte)
  /-- Elements of eight bytes, for the wake watches (R350). -/
  whole  : List (Pa × Word)
  /-- COUNT: bytes written, or for PREF, which writes nothing, read. -/
  bytes  : Nat
  pref   : Bool
  /-- Its writes to other packages that are under way: their numbers and their bytes; whether it has sent them (R262). -/
  away   : List (Nat × Nat)
  sent   : Bool
  token  : Option Pa
  msg    : Option (BitVec 512)
  batch  : Nat
  /-- First destination register, and for CPYRR and CPYVG the groups (register from it, group, bytes) and destinations. -/
  vreg   : Nat
  groups : List (Nat × Nat × List Byte)
  dsts   : List (BitVec 32)
  /-- For CPYVG the vl that each member must have. -/
  needVl : Option (BitVec 17)
  pages  : List (BitVec 14 × Nat)
  /-- The codeword that ended it with STATUS 3. -/
  bad    : Option Pa
  started : Bool
  landed : Bool
  swap   : Option Swap
  deriving DecidableEq, Repr

/-- A plane: what it was loaded from, its bytes that are not zero by their offset in the tile, the codeword that failed
in its fill, and whether its source has been written since (R180, R184, R188). -/
structure Plane where
  w     : Weights
  data  : List Host.Cell
  bad   : Option Pa
  stale : Bool
  deriving DecidableEq, Repr

/-- The matrix unit: the granted job that waits, the job that runs with its next row, the planes, a fill under way and the bytes that it
has read (R184). -/
structure MatUnit where
  granted : Option Job
  running : Option Job
  row     : Nat
  plane   : Option Plane
  shadow  : Option Plane
  filling : Bool
  filled  : Nat
  deriving DecidableEq, Repr

/-- A cluster (R168, R182, R183, R238, R304, R327). -/
structure Cluster where
  /-- Accumulator entries that are not +0, keyed by (tile x 128 + row) x 256 + column. -/
  acc     : List (Nat × BitVec 80)
  /-- Rows marked in error, and those of them that an error in an accumulator entry marks (R180, R367). -/
  badRows : List Nat
  upsets  : List Nat
  marbw   : Word
  ptr     : Nat
  credit  : Nat
  unit    : MatUnit
  copies  : List Copy
  tlb     : List Tlb
  l2cfg   : Word
  swsave  : Word
  tenant  : BitVec 6
  /-- What each core's slots awaited, and its messages, for the tenants whose state a switch has saved (R328). -/
  saved   : List (Nat × List (List (Nat × Slot) × List Msg))
  /-- A switch takes the cluster from its tenant, and the slots that it has evicted (R328). -/
  leaving : Bool
  /-- Since when the switch's second step has waited. -/
  since   : Option Nat
  evicted : List (CoreId × Nat)
  deriving DecidableEq, Repr

/-- A die: its gphase where elapsed is 0 (R185). -/
structure Die where
  phase0 : Nat
  deriving DecidableEq, Repr

/-- A segment of a range lock (R239, R259; DEDUCED, log 14). -/
structure Lock where
  owner : Nat
  lo    : Pa
  len   : Nat
  src   : Bool
  token : Pa
  /-- The segment that holds the range's first byte, which names the lock table. -/
  first : Bool
  deriving DecidableEq, Repr

/-- An entry of a waiter table (R229). -/
structure Waiter where
  pa   : Pa
  who  : Who
  wait : Wait
  deriving DecidableEq, Repr

/-- A load of an empty future held at its home (R234). -/
structure Deferred where
  pa  : Pa
  who : Who
  reg : Reg
  deriving DecidableEq, Repr

/-- A launch queue and the distributor's place in it (R314 to R322). -/
structure Queue where
  qbase : Word
  ctl   : Word
  qtok  : Word
  qhead : BitVec 32
  ovf   : Bool
  sel   : BitVec 32
  head  : Option (List Byte)
  eligible : Option Nat
  /-- Pod physical addresses of the head's after-tokens that are still awaited (R321). -/
  after : List Pa
  /-- The clusters of the head's placement, as its check accepted them (R318, R319). -/
  clusters : List Nat
  deriving DecidableEq, Repr

/-- An entry being bound (R322, R323). -/
structure Binding where
  queue : Nat
  entry : List Byte
  next  : Nat
  clusters : List Nat
  deriving DecidableEq, Repr

/-- A tenant's registers in a package (R311 to R314, R333, R347). -/
structure Tenant where
  cfg    : TenantCfg
  fqbase : Word
  fqvec  : Word
  fqlog2 : Word
  fqhead : BitVec 32
  fqtail : BitVec 32
  fqlost : Word
  stages : Vector Word 16
  queues : Vector Queue 16
  bind   : Option Binding
  place  : Nat
  apers  : Vector Word 16
  hsiga  : Word
  ndwell : Word
  fdwell : Word
  blog2  : Word
  /-- log2 of the size of the blocks in the caches of the tenant's cores (R354). -/
  blocklog : Word
  pused  : Nat
  deriving DecidableEq, Repr

/-- A move of a block, or of a context where no block is named, by the fallow engine: its tiers, its ranges, the bytes as they
stood at its registration, the codeword that failed (R349, R360). -/
structure Mover where
  entry : Nat
  block : Option Nat
  id    : Nat
  frm   : Nat
  into  : Nat
  src   : Nat
  dst   : Nat
  len   : Nat
  data  : List Byte
  bad   : Option Pa
  deriving DecidableEq, Repr

/-- A park entry (R345), with what the engine is doing with it (R348 to R351). -/
structure ParkEntry where
  st     : Nat
  tenant : BitVec 6
  ctier  : Nat
  stage  : Nat
  woken  : Bool
  cid    : BitVec 32
  wtok   : Pa
  btab   : Pa
  ctx    : Nat
  nused  : Nat
  csize  : Nat
  age    : Nat
  wval   : Word
  ptokp  : Pa
  /-- The D field of its PARK, and log2 of its block size (R344, R351). -/
  reg    : Reg
  blog   : Nat
  /-- Blocks that were far or deep already at its PARK: they move at its promotion only (R348). -/
  still  : List Nat
  /-- The coroutine has resumed while blocks are still promoting (R350). -/
  resumed : Bool
  /-- The next block to consider: upwards in a demotion, below it in a promotion (R348, R350). -/
  pos    : Nat
  /-- Blocks whose promotion has failed (R350, R360). -/
  failed : List Nat
  /-- The record of reason 2 has been posted (R350). -/
  short  : Bool
  deriving DecidableEq, Repr

/-- Who asks the walker for a translation: a core for an access, its run-ahead fetch, or an engine of a cluster (R305, R308, R310). -/
inductive Asker where
  | core (g : CoreId)
  | ahead (g : CoreId)
  | engine (cl : Nat)
  deriving DecidableEq, Repr

/-- A walk in progress, with those whose requests it serves (R305). -/
structure Walk where
  askers : List Asker
  asid  : BitVec 14
  va    : Word
  level : Nat
  table_ : Pa
  deriving DecidableEq, Repr

/-- Why a walk gives no address: no valid or permitting leaf, or an uncorrectable error in a table entry (R302, R366); or why the
bytes of an instruction line are not read: an error in them, or a package that does not answer for them (R339, R340). -/
inductive Miss where
  | page
  | data (entry : Pa)
  | barred
  deriving DecidableEq, Repr

/-- The snapshot block of a package (R372, R373). -/
structure Snapshot where
  arm     : Bool
  fclass  : Word
  tenants : Word
  count   : Word
  src     : Word
  /-- The triggers whose latches are still to come: their cycles and their sources. -/
  pending : List (Nat × Nat)
  copy    : List Byte
  deriving DecidableEq, Repr

/-- An entry of Grexa's own log (R328, R368). -/
inductive Notice where
  /-- A memory error: KIND, the address of the codeword, UNIT, and the page (R368). -/
  | memory (kind : Nat) (addr : Pa) (unit page : Nat)
  /-- A tenant switch of a cluster has been abandoned (R328). -/
  | switchAbandoned (cl : Nat)
  deriving DecidableEq, Repr

/-- How a host read or AtomicOp completes (R334). -/
inductive HostReply where
  | data (bytes : List Byte)
  | unsupportedRequest
  | completerAbort
  deriving DecidableEq, Repr

/-- A package (R1, R2, and the chapters of each unit). -/
structure Pkg where
  on        : Bool
  sole      : Option CoreId
  soleReqs  : List CoreId
  locks     : List Lock
  waiters   : List Waiter
  deferred  : List Deferred
  walks     : List Walk
  /-- Requests that wait for a walk slot, in arrival order, and the pages whose walk has ended without a translation, which those who
  have waited for it have yet to meet (R305). -/
  walkq     : List (Asker × BitVec 14 × Word)
  missed    : List (Asker × (BitVec 14 × Nat) × Miss)
  asidbase  : Word
  tlbinv    : List (Option (BitVec 6) × Word × Word × Word)
  tenants   : List (Nat × Tenant)
  park      : List (Nat × ParkEntry)
  movers    : List Mover
  waitSlot  : List Nat
  watches   : List (Pa × Nat)
  mirror    : List (Nat × ParkEntry)
  flash     : List (Nat × Byte)
  nearFree  : List (Nat × Nat)
  farFree   : List (Nat × Nat)
  deepFree  : List (Nat × Nat)
  /-- Request records that Grexa has yet to serve, and replies not yet accepted (R356). -/
  fwreqs    : List (BitVec 6 × Pa)
  replies   : List (BitVec 6 × BitVec 32 × Msg)
  /-- The prefix index: KEY with its blocks, and the count of each block, by the tier's kind of address and the address (R357). -/
  prefixes  : List (Word × List Pa)
  counts    : List (Nat × Nat)
  /-- Which local tenant a tenant of another package is, where Grexa has set it (R340). -/
  origin    : Option (List ((Nat × BitVec 6) × BitVec 6))
  /-- The ranges of the granary that have been in the windows of a tenant, and in those of no other since (R331). -/
  granary   : List (Nat × Nat × Nat)
  /-- MSI-X messages sent: the tenant of the virtual function, and which of its 32 vectors (R332). -/
  msix      : List (BitVec 6 × BitVec 5)
  snap      : Snapshot
  /-- Codewords of memory with an uncorrectable error, and with a correctable one; codewords of 8 bytes of lines in L2 (2) and L1 (3) with an
  uncorrectable one (R365, R366). -/
  failing   : List Pa
  weak      : List Pa
  cached    : List (Pa × Nat)
  retired   : List Nat
  /-- Grexa's own log: records of KIND 3 to 6, and what it reports over the management interface (R328, R368). -/
  log       : List Notice
  /-- Corrected errors: the page and when (R370); the errors so far by UNIT, corrected ones apart from others (R365, R379). -/
  corrected : List (Nat × Nat)
  errors    : List ((Nat × Bool) × Nat)
  cxlSize   : Vector Nat 2
  cxlDown   : Vector Bool 2
  ports     : List Nat
  /-- Completions sent to the host, in order (R334). -/
  hostReplies : List HostReply
  /-- The two image slots in flash (R374, R379). -/
  images    : Vector (Option Image) 2
  image     : Option Image
  fuse      : Nat
  tabesh    : BitVec 256
  /-- The certificate of the identity key, in flash (R375). -/
  certificate : List Byte
  recovery  : Bool
  boots     : Nat
  /-- When the module was reset last, which is when `cycle` of its cores was 0 (R74, R378). -/
  booted    : Nat
  report    : List Byte
  cap       : Nat
  throttled : Bool
  /-- The hottest junction in degrees and the power in watts, as they were measured last (R377, R379). -/
  celsius   : Nat
  watts     : Nat
  i3c       : BitVec 7
  fused     : List Nat
  deriving DecidableEq, Repr

/-- A soft error, which comes from outside: what holds it (R365, R366; DESIGN CHOICE, log 43). -/
inductive Upset where
  /-- An uncorrectable error in a codeword of memory, and one that its code corrects (R366, R369). -/
  | codeword (pa : Pa)
  | correctable (pa : Pa)
  /-- An uncorrectable error in committed data of a line in the L1 or the L2 (R365, R366). -/
  | cached (pa : Pa) (l1 : Bool)
  /-- In a register of the coroutine that runs: file 0 scalar, 1 vector, 2 mask, and number (R367). -/
  | register (g : CoreId) (file : Nat) (n : Nat)
  /-- In a row of an accumulator tile, tile x 128 + row (R180, R367). -/
  | accumulator (cl : Nat) (row : Nat)
  /-- In a suspended coroutine's context in the context cache (R366). -/
  | context (g : CoreId) (slot : Nat)
  /-- In a packet of a core's collective buffer (R275). -/
  | packet (g : CoreId) (n : Nat)
  /-- In a speculative line of a core's L1, of the chunk that waits for the weir or of the executing one (R255). -/
  | speculative (g : CoreId) (waiting : Bool)
  /-- One that is corrected on the read path of a structure of a package that keeps none: the caches, with the collective buffers in the
  L2, registers, accumulators or the context cache, by UNIT (R327, R365). -/
  | corrected (pkg : Nat) (unit : Nat)
  deriving DecidableEq, Repr

/-- One entry of the agenda: a choice among what could happen next, or an input from outside (DESIGN CHOICE, log 4). -/
inductive Move where
  | core (g : CoreId)
  | flight (n : Nat)
  | event (e : Event)
  | upset (u : Upset)
  /-- A measurement of a package's hottest junction and of its power (R377). -/
  | measure (pkg celsius watts : Nat)
  /-- The running Grexa image raises the fused version (R374). -/
  | raiseFuse (pkg version : Nat)
  deriving DecidableEq, Repr

/-- The pod. -/
structure State where
  cores    : List (Nat × Core)
  clusters : List (Nat × Cluster)
  dies     : List (Nat × Die)
  pkgs     : List (Nat × Pkg)
  mem      : List Host.Cell
  /-- Core cycles so far, which each step advances by a free amount (DESIGN CHOICE, log 6). -/
  elapsed  : Nat
  /-- Names handed out to copies, jobs, collectives and atomics. -/
  ids      : Nat
  /-- The core that issues unless the agenda says otherwise (DESIGN CHOICE, log 4). -/
  focus    : CoreId
  /-- Instructions that the core in focus has issued in a row (DESIGN CHOICE, log 4). -/
  burst    : Nat
  agenda   : List Move
  flight   : List Event
  stalled  : List CoreId
  deriving DecidableEq, Repr

/-! ### The values after reset (R378; the ones the spec does not give are named in DESIGN CHOICE, log 1, 2, 7, 16 to 18) -/

/-- A group register that no GSET has written. -/
def Grp.reset : Grp := ⟨0, 0, false, 0, 0, 0⟩

/-- The registers of a coroutine as its creation leaves them (R74, R214). -/
def Co.reset : Co where
  s := Vector.replicate 32 0
  pend := 0
  marks := []
  v := []
  m := Vector.replicate 8 0
  g := Vector.replicate 8 Grp.reset
  pc := 0
  next := 0
  mode := .user
  vl := 0
  vtype := 0
  vstart := 0
  istate := 0
  fmode := 1
  seed := 0
  sbase := 0
  stage := 0
  cls := 0
  ceil := 0
  quantum := 4096
  lstate := 0
  lfrz := false
  lbad := false
  lpend := false
  tvec := 0
  epc := 0
  ecause := 0
  etval := 0
  estatPm := false
  info := 0
  cid := 0
  asid := 0
  tenant := 0
  done := 0
  grant := false
  cont := 0
  table := none

/-- A coroutine that has sent nothing and owns no batch. -/
def Ext.reset : Ext where
  touched := []
  wide := false
  ended := false
  unacked := []
  lost := []
  fence := none
  fencets := []
  openB := none
  sealedB := []
  squashes := 0
  sole := false
  chunks := 0
  badRegs := []
  vpend := []
  cpend := []
  mpend := 0
  vamos := []

/-- An empty chunk that starts at the registers given. -/
def Chunk.fresh (co : Co) : Chunk where
  start := co
  writes := []
  reads := []
  wrote := []
  whole := []
  heads := 0
  vmem := 0
  ended := false
  compl := []
  posts := []
  mmio := []
  mloads := []
  pages := []
  errors := []
  after := none
  back := none
  since := none

/-- A free slot (R194). -/
def Slot.reset : Slot where
  st := .free
  gen := 0
  co := Co.reset
  ext := Ext.reset
  full := false
  live := 0
  size := 0
  inMem := false
  stamp := 0
  turn := 0
  wait := .nothing
  head := 0
  signalled := false
  cacheError := false

/-- A core after its reset (R74, R378). -/
def Core.reset : Core where
  co := Co.reset
  ext := Ext.reset
  chunk := Chunk.fresh Co.reset
  waiting := none
  running := none
  slots := []
  vq := []
  line := none
  ahead := []
  tlb := []
  turns := 0
  spilling := []
  refills := []
  mailbox := []
  handler := none
  blocks := []
  weights := none
  jobs := []
  colls := []
  packets := []
  prefetch := []
  pmc := Vector.replicate 16 0
  pmcsel := Vector.replicate 16 0
  cycle0 := 0
  wdog := 700000000
  quietAt := none
  quiet := false
  ctxbase := 0
  busy := false
  cmdSlot := none
  evicting := false

/-- A matrix unit with empty planes and no job (R184, R378). -/
def MatUnit.reset : MatUnit := ⟨none, none, 0, none, none, false, 0⟩

/-- A cluster after its reset: every accumulator entry +0, every weight 1, ptr 7, credit 0 (R173, R182, R183, R327). -/
def Cluster.reset : Cluster where
  acc := []
  badRows := []
  upsets := []
  marbw := 0x0101010101010101
  ptr := 7
  credit := 0
  unit := MatUnit.reset
  copies := []
  tlb := []
  l2cfg := 0x10
  swsave := 0
  tenant := 0
  saved := []
  leaving := false
  since := none
  evicted := []

/-- A die after its reset (DESIGN CHOICE, log 7). -/
def Die.reset : Die := ⟨0⟩

/-- A launch queue after reset (R314). -/
def Queue.reset : Queue := ⟨0, 0, 0, 0, false, 0, none, none, [], []⟩

/-- A tenant that Grexa has not configured (R311 to R314, R333, R347). -/
def Tenant.reset : Tenant where
  cfg := ⟨false, 0, 0, 0, 0, [], [], 0, [], [], [], [], [], none, []⟩
  fqbase := 0
  fqvec := 0
  fqlog2 := 0
  fqhead := 0
  fqtail := 0
  fqlost := 0
  stages := Vector.replicate 16 0
  queues := Vector.replicate 16 Queue.reset
  bind := none
  place := 0
  apers := Vector.replicate 16 0
  hsiga := 0
  ndwell := 10000000
  fdwell := 600000000
  blog2 := 16
  blocklog := 16
  pused := 0

/-- A snapshot block after reset (R373). -/
def Snapshot.reset : Snapshot := ⟨false, 0, 0, 0, 0, [], []⟩

/-- A package after a cold reset: no image has been staged, so that it is in recovery (R374, R378; DESIGN CHOICE, log 16 to 18). -/
def Pkg.reset : Pkg where
  on := true
  sole := none
  soleReqs := []
  locks := []
  waiters := []
  deferred := []
  walks := []
  walkq := []
  missed := []
  asidbase := 0
  tlbinv := []
  tenants := []
  park := []
  movers := []
  waitSlot := []
  watches := []
  mirror := []
  flash := []
  nearFree := []
  farFree := []
  deepFree := []
  fwreqs := []
  replies := []
  prefixes := []
  counts := []
  origin := none
  granary := []
  msix := []
  snap := Snapshot.reset
  failing := []
  weak := []
  cached := []
  retired := []
  log := []
  corrected := []
  errors := []
  cxlSize := Vector.replicate 2 0
  cxlDown := Vector.replicate 2 false
  ports := []
  hostReplies := []
  images := Vector.replicate 2 none
  image := none
  fuse := 0
  tabesh := 0
  certificate := []
  recovery := true
  boots := 0
  booted := 0
  report := []
  cap := 0
  throttled := false
  celsius := 0
  watts := 0
  i3c := 0
  fused := []

/-- The pod after reset: nothing runs, no memory byte is listed, no event is under way. -/
def State.reset : State where
  cores := []
  clusters := []
  dies := []
  pkgs := []
  mem := []
  elapsed := 0
  ids := 0
  focus := 0
  burst := 0
  agenda := []
  flight := []
  stalled := []

end Sys2Proof.Machine
end

