-- ==== Sys2Proof/Machine/Bytes.lean ====
section
/-!
DEFINITION. Bytes, bit fields and tables: memory in its canonical form, little-endian numbers (R5), sign extension,
and the lists of (key, value) that State's tables are.
-/

namespace Sys2Proof.Machine

/-! ### Tables -/

/-- The value at a key; the default where the key is not listed. -/
def Tab.get {α : Type} (d : α) : List (Nat × α) → Nat → α
  | [], _ => d
  | (a, x) :: r, k => if a = k then x else Tab.get d r k

/-- The value at a key replaced, keys kept ascending. -/
def Tab.set {α : Type} : List (Nat × α) → Nat → α → List (Nat × α)
  | [], k, v => [(k, v)]
  | (a, x) :: r, k, v =>
    if a = k then (k, v) :: r else if k < a then (k, v) :: (a, x) :: r else (a, x) :: Tab.set r k v

/-- Whether a key is listed. -/
def Tab.has {α : Type} (l : List (Nat × α)) (k : Nat) : Bool := l.any (·.1 == k)

/-- A key taken out. -/
def Tab.del {α : Type} (l : List (Nat × α)) (k : Nat) : List (Nat × α) := l.filter (·.1 != k)

/-! ### Memory -/

/-- The byte at an address; an address that is not listed reads as zero (DESIGN CHOICE, log 2). -/
def memGet : List Host.Cell → Nat → Byte
  | [], _ => 0#8
  | (a, b) :: r, k => if a = k then b else memGet r k

/-- One byte written; writing zero takes the entry out, so that equal memories are equal data. -/
def memSet : List Host.Cell → Nat → Byte → List Host.Cell
  | [], k, v => if v = 0#8 then [] else [(k, v)]
  | (a, b) :: r, k, v =>
    if a = k then (if v = 0#8 then r else (k, v) :: r)
    else if k < a then (if v = 0#8 then (a, b) :: r else (k, v) :: (a, b) :: r)
    else (a, b) :: memSet r k v

/-- The addresses rise strictly from a lower bound and no entry is zero. -/
def memWfFrom : Nat → List Host.Cell → Bool
  | _, [] => true
  | lo, (a, b) :: r => lo ≤ a && b != 0#8 && memWfFrom (a + 1) r

/-- The canonical form of a memory. -/
def Memory.wf (m : List Host.Cell) : Bool := memWfFrom 0 m

/-- The n bytes from an address. -/
def memBytes (m : List Host.Cell) (a n : Nat) : List Byte := (List.range n).map fun i => memGet m (a + i)

/-- Bytes written one after another from an address. -/
def memPut (m : List Host.Cell) : Nat → List Byte → List Host.Cell
  | _, [] => m
  | a, b :: r => memPut (memSet m a b) (a + 1) r

/-- Bytes written at the addresses they come with, in order. -/
def memPuts (m : List Host.Cell) (ws : List (Nat × Byte)) : List Host.Cell :=
  ws.foldl (fun m w => memSet m w.1 w.2) m

/-- The number that bytes stand for, little-endian (R5). -/
def leNat : List Byte → Nat
  | [] => 0
  | b :: r => b.toNat + 256 * leNat r

/-- The n low bytes of a number, little-endian. -/
def leBytes : Nat → Nat → List Byte
  | 0, _ => []
  | n + 1, x => BitVec.ofNat 8 x :: leBytes n (x / 256)

/-- The doubleword at an address. -/
def memWord (m : List Host.Cell) (a : Nat) : Word := BitVec.ofNat 64 (leNat (memBytes m a 8))

/-- A doubleword written. -/
def memPutWord (m : List Host.Cell) (a : Nat) (w : Word) : List Host.Cell := memPut m a (leBytes 8 w.toNat)

/-! ### Bit fields -/

/-- Bits [lo + w - 1 : lo] of a number. -/
def bits (x lo w : Nat) : Nat := x / 2 ^ lo % 2 ^ w

/-- Bits [lo + w - 1 : lo] of a word. -/
def field (x : Word) (lo w : Nat) : Nat := bits x.toNat lo w

/-- A word with bits [lo + w - 1 : lo] replaced. -/
def setField (x : Word) (lo w v : Nat) : Word :=
  BitVec.ofNat 64 (x.toNat - field x lo w * 2 ^ lo + v % 2 ^ w * 2 ^ lo)

/-- The signed value of the low w bits of a number. -/
def signed (w x : Nat) : Int :=
  if 2 * (x % 2 ^ w) < 2 ^ w then (x % 2 ^ w : Nat) else (x % 2 ^ w : Nat) - (2 ^ w : Nat)

/-- The low w bits of an integer, two's complement (R36). -/
def wrap (w : Nat) (x : Int) : Nat := (x % (2 ^ w : Nat)).toNat

/-- A 64-bit word of an integer. -/
def ofInt (x : Int) : Word := BitVec.ofInt 64 x

/-- An immediate sign-extended to 64 bits. -/
def sext {w : Nat} (x : BitVec w) : Word := x.signExtend 64

/-- A truth value as a scalar result. -/
def flag (b : Bool) : Word := if b then 1 else 0

/-- Update of the n-th member of a list. -/
def listSet {α : Type} (l : List α) (n : Nat) (f : α → α) : List α := l.modify n f

/-- floor(log2 n), 0 for 0. -/
def log2 (n : Nat) : Nat := Nat.log2 n

/-- ceil(a / b). -/
def ceilDiv (a b : Nat) : Nat := (a + b - 1) / b

end Sys2Proof.Machine
end

