-- ==== Sys2Proof/Machine/Place.lean ====
section
/-!
DEFINITION. Where things are: coroutine IDs (R11), the local map of a package (R297, R298), homes (R66), codewords
(R365), and the access to each table of State.
-/

namespace Sys2Proof.Machine

/-! ### Names of cores and coroutines -/

/-- The package of a core. -/
def pkgOf (g : CoreId) : Nat := g / 1024
/-- The cluster of a core, counted over the pod. -/
def clusterOf (g : CoreId) : Nat := g / 8
/-- The die of a core, counted over the pod (R11: bits [19:18] of the CID). -/
def dieOf (g : CoreId) : Nat := g / 256
/-- The core that a CID names (R11). -/
def cidCore (c : BitVec 32) : CoreId := c.toNat / 1024
/-- The slot that a CID names. -/
def cidSlot (c : BitVec 32) : Nat := c.toNat / 4 % 256
/-- The CID of a slot of a core. -/
def mkCid (g : CoreId) (slot : Nat) : BitVec 32 := BitVec.ofNat 32 (g * 1024 + slot * 4)

/-! ### The tables of State -/

/-- A core of the pod. -/
def State.core (s : State) (g : CoreId) : Core := Tab.get Core.reset s.cores g
/-- A core replaced. -/
def State.setCore (s : State) (g : CoreId) (c : Core) : State := { s with cores := Tab.set s.cores g c }
/-- A cluster of the pod. -/
def State.cluster (s : State) (n : Nat) : Cluster := Tab.get Cluster.reset s.clusters n
/-- A cluster replaced. -/
def State.setCluster (s : State) (n : Nat) (c : Cluster) : State := { s with clusters := Tab.set s.clusters n c }
/-- A die of the pod. -/
def State.die (s : State) (n : Nat) : Die := Tab.get Die.reset s.dies n
/-- A die replaced. -/
def State.setDie (s : State) (n : Nat) (d : Die) : State := { s with dies := Tab.set s.dies n d }
/-- A package of the pod. -/
def State.pkg (s : State) (n : Nat) : Pkg := Tab.get Pkg.reset s.pkgs n
/-- A package replaced. -/
def State.setPkg (s : State) (n : Nat) (p : Pkg) : State := { s with pkgs := Tab.set s.pkgs n p }
/-- A tenant of a package. -/
def State.tenant (s : State) (p t : Nat) : Tenant := Tab.get Tenant.reset (s.pkg p).tenants t
/-- A tenant replaced. -/
def State.setTenant (s : State) (p t : Nat) (x : Tenant) : State :=
  s.setPkg p { s.pkg p with tenants := Tab.set (s.pkg p).tenants t x }
/-- A slot of a core. -/
def Core.slot (c : Core) (n : Nat) : Slot := Tab.get Slot.reset c.slots n
/-- A slot replaced. -/
def Core.setSlot (c : Core) (n : Nat) (x : Slot) : Core := { c with slots := Tab.set c.slots n x }
/-- An event put at the back of those under way. -/
def State.post (s : State) (i : Event) : State := { s with flight := s.flight ++ [i] }
/-- A move put after the events that lead the agenda. -/
def afterEvents (e : Event) : List Move → List Move
  | .event x :: r => .event x :: afterEvents e r
  | l => .event e :: l

/-- An event that is performed before anything else issues (DESIGN CHOICE, log 4). -/
def State.soon (s : State) (e : Event) : State := { s with agenda := afterEvents e s.agenda }

/-- The event is a store, AMO or atomic update that a chunk posts: its home acknowledges it (R261, R264). -/
def Event.isWrite : Event → Bool
  | .remoteWriteAtHome _ _ _ _ _ => true
  | .amoAtHome _ _ _ _ _ _ _ _ _ => true
  | .vamoUpdateAtHome _ _ _ _ _ _ _ _ _ _ _ => true
  | _ => false

/-- A posted write with its number among those of its coroutine (R264). -/
def Event.numbered (n : Nat) : Event → Event
  | .remoteWriteAtHome w pa b v q => .remoteWriteAtHome w pa b v { q with seq := n }
  | .amoAtHome w r pa f dbl op cmp ea q => .amoAtHome w r pa f dbl op cmp ea { q with seq := n }
  | .vamoUpdateAtHome w id pa f t v rm seed sbase idx q => .vamoUpdateAtHome w id pa f t v rm seed sbase idx { q with seq := n }
  | e => e

/-- Events put at the back of those under way. -/
def State.posts (s : State) (l : List Event) : State := { s with flight := s.flight ++ l }

/-! ### The local map (R297, R298) -/

/-- What an address of a package's local map is. -/
inductive Region where
  | hbm
  | cxl (port : Nat)
  | granary (die : Nat)
  | scratch (core : Nat)
  | cell (core : Nat)
  | clusterMmio (cluster : Nat)
  | packageMmio
  | hole
  deriving DecidableEq, Repr

/-- The package field of a pod physical address. -/
def paPkg (pa : Pa) : Nat := pa / 2 ^ 46
/-- The local address. -/
def paLocal (pa : Pa) : Nat := pa % 2 ^ 46

/-- The region of a local address, with populated parts alone (R298, R336, R371). -/
def Pkg.region (p : Pkg) (l : Nat) : Region :=
  if l < 768000000000 then .hbm
  else if 0x100000000000 ≤ l ∧ l < 0x120000000000 then
    if l - 0x100000000000 < p.cxlSize[0] then .cxl 0 else .hole
  else if 0x120000000000 ≤ l ∧ l < 0x140000000000 then
    if l - 0x120000000000 < p.cxlSize[1] then .cxl 1 else .hole
  else if 0x200000000000 ≤ l ∧ l < 0x200100000000 then .granary ((l - 0x200000000000) / 2 ^ 30)
  else if 0x210000000000 ≤ l ∧ l < 0x210010000000 then
    if p.fused.contains ((l - 0x210000000000) / 2 ^ 18) then .hole else .scratch ((l - 0x210000000000) / 2 ^ 18)
  else if 0x220000000000 ≤ l ∧ l < 0x220000200000 then
    if p.fused.contains ((l - 0x220000000000) / 2 ^ 11) then .hole else .cell ((l - 0x220000000000) / 2 ^ 11)
  else if 0x300000000000 ≤ l ∧ l < 0x300008000000 then .clusterMmio ((l - 0x300000000000) / 2 ^ 20)
  else if 0x300008000000 ≤ l ∧ l < 0x300009000000 then .packageMmio
  else .hole

/-- The region of a pod physical address. -/
def State.region (s : State) (pa : Pa) : Region := (s.pkg (paPkg pa)).region (paLocal pa)

/-- Pod physical address of a token cell (R223, R298). -/
def cellPa (g : CoreId) (n : Nat) : Pa := g / 1024 * 2 ^ 46 + 0x220000000000 + g % 1024 * 2048 + 8 * (n % 256)
/-- Base of a core's scratchpad (R298). -/
def scratchPa (g : CoreId) : Pa := g / 1024 * 2 ^ 46 + 0x210000000000 + g % 1024 * 2 ^ 18

/-- The 128-byte line of an address (R66). -/
def lineOf (pa : Pa) : Nat := pa / 128

/-- The home slice of an address outside the scratchpad and token-cell windows (R66). -/
def homeSlice (pa : Pa) : Nat :=
  let l := paLocal pa / 128
  Nat.xor (Nat.xor (Nat.xor (Nat.xor (bits l 0 8) (bits l 8 8)) (bits l 16 8)) (bits l 24 8)) (bits l 32 7)

/-- A home: a core for its scratchpad and cells, a slice for the rest, none where there is no home (R66). -/
inductive Home where
  | core (g : CoreId)
  | slice (pkg n : Nat)
  | nowhere
  deriving DecidableEq, Repr

/-- home_of (R66). -/
def State.homeOf (s : State) (pa : Pa) : Home :=
  match s.region pa with
  | .scratch c => .core (paPkg pa * 1024 + c)
  | .cell c => .core (paPkg pa * 1024 + c)
  | .hbm => .slice (paPkg pa) (homeSlice pa)
  | .cxl _ => .slice (paPkg pa) (homeSlice pa)
  | _ => .nowhere

/-! ### Codewords (R365, R366) -/

/-- The bytes of data that one codeword protects. -/
def Region.codeword : Region → Nat
  | .hbm => 32
  | .cxl _ => 64
  | _ => 8

/-- The codeword of an address. -/
def State.codeword (s : State) (pa : Pa) : Pa := pa / (s.region pa).codeword * (s.region pa).codeword

/-- The address lies in the window of a CXL port whose link has failed (R337). -/
def State.linkDown (s : State) (pa : Pa) : Bool :=
  match s.region pa with
  | .cxl 0 => (s.pkg (paPkg pa)).cxlDown[0]
  | .cxl _ => (s.pkg (paPkg pa)).cxlDown[1]
  | _ => false

/-- The codeword of memory that the byte lies in fails (R366). -/
def State.memoryFails (s : State) (pa : Pa) : Bool := (s.pkg (paPkg pa)).failing.contains (s.codeword pa)

/-- UNIT of the cache that holds a failing copy of the byte's codeword of 8 bytes: L2 or L1 (R365, R368). -/
def State.cacheFails (s : State) (pa : Pa) : Option Nat :=
  ((s.pkg (paPkg pa)).cached.find? (·.1 == pa / 8 * 8)).map (·.2)

/-- A read of this byte meets an uncorrectable error, a failed CXL link among them (R337, R366). -/
def State.failing (s : State) (pa : Pa) : Bool := s.memoryFails pa || (s.cacheFails pa).isSome || s.linkDown pa

/-- A codeword of data: where it starts and how many bytes it protects. -/
abbrev Codeword := Pa × Nat

/-- The codewords of a package that fail, in memory and in its caches (R365). -/
def State.badWords (s : State) (p : Nat) : List Codeword :=
  ((s.pkg p).failing.map fun c => (c, (s.region c).codeword)) ++ (s.pkg p).cached.map fun c => (c.1, 8)

/-- The codewords that fail where a run of bytes begins and ends over a failed link (R337, R365). -/
def State.downWords (s : State) (pa n : Nat) : List Codeword :=
  ([pa, pa + n - 1].filter s.linkDown).map fun x => (x / 64 * 64, 64)

/-- The run of bytes meets the codeword. -/
def Codeword.meets (c : Codeword) (pa n : Nat) : Bool := c.1 < pa + n && pa < c.1 + c.2

/-- The run of bytes covers the codeword whole. -/
def Codeword.within (c : Codeword) (pa n : Nat) : Bool := pa ≤ c.1 && c.1 + c.2 ≤ pa + n

/-- The failing codewords that a write of the run would have to merge with (R366). -/
def State.mergeWords (s : State) (pa n : Nat) : List Codeword :=
  (s.badWords (paPkg pa) ++ s.downWords pa n).filter fun c => c.meets pa n && !c.within pa n

/-- A package without the errors, correctable ones among them, of the codewords that a write replaces (R366). -/
def State.healed (s : State) (p : Nat) (gone : Codeword → Bool) : State :=
  let y := s.pkg p
  if y.failing = [] ∧ y.weak = [] ∧ y.cached = [] then s
  else
    let keep := fun (c : Pa) => !gone (c, (s.region c).codeword)
    s.setPkg p { y with failing := y.failing.filter keep, weak := y.weak.filter keep, cached := y.cached.filter fun c => !gone (c.1, 8) }

/-- Codewords that a run of bytes covers whole no longer fail (R366). -/
def State.heal (s : State) (pa n : Nat) : State := s.healed (paPkg pa) fun c => c.within pa n

/-- Codewords of a package that a write at these addresses covers whole no longer fail (R366, R380). -/
def State.healWritten (s : State) (p : Nat) (pas : List Pa) : State :=
  s.healed p fun c => (List.range c.2).all fun j => pas.contains (c.1 + j)

/-- The write of n bytes would have to merge with a failing codeword (R366). -/
def State.mergesFailing (s : State) (pa n : Nat) : Bool := s.mergeWords pa n != []

/-- The first segment of a write that would merge with a failing codeword of which the whole command, of which it is a part,
leaves a byte as it is; covers says which bytes of its own addresses the command writes (R366). -/
def State.firstMerge (s : State) (covers : Word → Bool) : Word → List (Nat × Nat) → Option Pa
  | _, [] => none
  | va, (pa, n) :: r =>
    let left := fun (c : Codeword) =>
      (List.range c.2).any fun j => !covers (va + BitVec.ofNat 64 (c.1 + j) - BitVec.ofNat 64 pa)
    if (s.mergeWords pa n).any left then some pa else s.firstMerge covers (va + BitVec.ofNat 64 n) r

/-- The first failing codeword of a run. -/
def State.firstFailing (s : State) (pa n : Nat) : Option Pa :=
  ((s.badWords (paPkg pa) ++ s.downWords pa n).find? (·.meets pa n)).map (·.1)

/-- UNIT of a codeword of memory in a memory error record (R368). -/
def Region.unitCode : Region → Nat
  | .hbm => 0
  | .cxl _ => 1
  | .granary _ => 6
  | _ => 4

/-- One error more of a unit, corrected or not (R365, R379). -/
def Pkg.countError (y : Pkg) (unit : Nat) (corrected : Bool) : Pkg :=
  let n := ((y.errors.find? (·.1 == (unit, corrected))).map (·.2)).getD 0
  { y with errors := y.errors.filter (·.1 != (unit, corrected)) ++ [((unit, corrected), n + 1)] }

/-- A corrected codeword counted, with its page and the time (R365, R370). -/
def State.countCorrected (s : State) (y : Pkg) (c : Pa) : Pkg :=
  { y.countError (s.region c).unitCode true with corrected := y.corrected ++ [(c / 65536 * 65536, s.elapsed)] }

/-- The codewords that a read of these runs corrects on its way are counted (R365, R370). -/
def State.noteRuns (s : State) (runs : List (Pa × Nat)) : State :=
  if s.pkgs.all fun (x : Nat × Pkg) => x.2.weak == [] then s
  else { s with pkgs := s.pkgs.map fun (x : Nat × Pkg) =>
    let l := x.2.weak.filter fun c => runs.any fun r => c < r.1 + r.2 && r.1 < c + (s.region c).codeword
    (x.1, l.foldl s.countCorrected x.2) }

/-- The codewords that a read of these bytes corrects on its way are counted (R365, R370). -/
def State.noteReads (s : State) (pas : List Pa) : State := s.noteRuns (pas.map fun a => (a, 1))

/-! ### Tenants' windows and clusters (R302, R311) -/

/-- The run of bytes lies wholly in one of the tenant's physical memory windows. -/
def State.inWindow (s : State) (p t : Nat) (pa n : Nat) : Bool :=
  (s.tenant p t).cfg.windows.any fun w => w.1 ≤ pa && pa + n ≤ w.1 + w.2

/-- The cluster lies in the tenant's set. -/
def State.inSet (s : State) (p t cl : Nat) : Bool := (s.tenant p t).cfg.clset.getLsbD cl

/-- The cluster lies in the tenant's set, or is being switched away and still holds the tenant's state (R328). -/
def State.inTenant (s : State) (p t cl : Nat) : Bool :=
  let k := s.cluster (p * 128 + cl)
  s.inSet p t cl || (k.leaving && k.tenant.toNat == t)

/-- The package lies in the tenant's pod partition (R312). -/
def State.inPartition (s : State) (p t q : Nat) : Bool :=
  let c := (s.tenant p t).cfg
  c.pbase.toNat ≤ q && q < c.pbase.toNat + c.pcount.toNat

/-- The core is fused off (R371). -/
def State.fusedOff (s : State) (g : CoreId) : Bool := (s.pkg (pkgOf g)).fused.contains (g % 1024)

/-- The local tenant that a request of another package acts for (R340; DESIGN CHOICE, log 16). -/
def State.localTenant (s : State) (p src : Nat) (t : BitVec 6) : Option (BitVec 6) :=
  if p = src then some t
  else match (s.pkg p).origin with
    | none => some t
    | some l => (l.find? fun e => e.1 == (src, t)).map (·.2)

/-- The package is powered and runs a verified image: otherwise no tenant runs, and no unit of it works (R374, R377). -/
def Pkg.live (y : Pkg) : Bool := y.on && !y.recovery

/-- `cycle` of a core (R74). -/
def State.cycles (s : State) (g : CoreId) : Nat := s.elapsed - max (s.core g).cycle0 (s.pkg (pkgOf g)).booted

/-- The parts of runs that lie in a package's granary (R298). -/
def granaryRuns (p : Nat) (l : List (Nat × Nat)) : List (Nat × Nat) :=
  l.filterMap fun w =>
    let lo := max w.1 (p * 2 ^ 46 + 0x200000000000)
    let hi := min (w.1 + w.2) (p * 2 ^ 46 + 0x200100000000)
    if lo < hi then some (lo, hi - lo) else none

/-- No byte of a run lies in the granary, which a copy with FLAGS.GRAN alone writes: an engine may write there (R329). -/
def openRun (pa n : Nat) : Bool := granaryRuns (paPkg pa) [(pa, n)] == []

end Sys2Proof.Machine
end

