-- ==== Sys2Proof/Machine/Regs.lean ====
section
/-!
DEFINITION. The registers of a coroutine and of its core: scalar registers with s0 hard-wired (R68), pending
registers (R84), masks (R116), the fields of vtype, lstate and fmode, the event counters (R76).
-/

namespace Sys2Proof.Machine

/-! ### Scalar registers -/

/-- A scalar register; s0 reads as zero (R68). -/
def Co.rd (c : Co) (r : Reg) : Word := if r = 0 then 0 else c.s[r.toNat]

/-- A scalar register written; a write to s0 is discarded (R68). A write takes the register out of the pending ones. -/
def Co.wr (c : Co) (r : Reg) (x : Word) : Co :=
  if r = 0 then c else { c with
    s := c.s.set r.toNat x
    pend := c.pend &&& ~~~(1#32 <<< r.toNat)
    marks := Tab.del c.marks r.toNat }

/-- Whether a scalar register is pending; s0 never is (R68, R84). -/
def Co.isPend (c : Co) (r : Reg) : Bool := r != 0 && c.pend.getLsbD r.toNat

/-- A scalar register made pending (R84). -/
def Co.setPend (c : Co) (r : Reg) : Co := if r = 0 then c else { c with pend := c.pend ||| (1#32 <<< r.toNat) }

/-- The address of the failed remote load whose value a register was to receive (R97). -/
def Co.mark (c : Co) (r : Reg) : Option Word := (c.marks.find? (·.1 == r.toNat)).map (·.2)

/-! ### vtype and element types (R35, R38, R69, R71) -/

/-- D, the declared register count. -/
def dcount (dc : Nat) : Nat := 8 * 2 ^ dc
/-- The element type code of a vtype. -/
def vtTy (t : BitVec 6) : Nat := t.toNat % 16
/-- The D code of a vtype. -/
def vtDc (t : BitVec 6) : Nat := t.toNat / 16
/-- D of a coroutine. -/
def Co.nregs (c : Co) : Nat := dcount (vtDc c.vtype)

/-- The width of an element type in bits (R35, R38, R69). -/
def tyWidth (t : Nat) : Nat :=
  match t with
  | 0 | 4 | 9 => 8
  | 1 | 5 | 10 | 11 => 16
  | 2 | 6 | 12 => 32
  | 8 => 4
  | _ => 64

/-- vlmax(t, d) in elements of a width (R69, R112). -/
def vlmaxW (w d : Nat) : Nat := 262144 / d * 8 / w

/-- The width of vtype's element type. -/
def Co.width (c : Co) : Nat := tyWidth (vtTy c.vtype)

/-! ### Vector registers: 256 KiB of bytes shared by D registers (R69) -/

/-- The bytes of one vector register. -/
def Co.vbytes (c : Co) : Nat := 262144 / c.nregs

/-- Element i of a register at width w, as a number; f4 elements are nibbles. -/
def Co.elem (c : Co) (r w i : Nat) : Nat :=
  if w = 4 then bits (memGet c.v (r * c.vbytes + i / 2)).toNat (4 * (i % 2)) 4
  else leNat (memBytes c.v (r * c.vbytes + i * (w / 8)) (w / 8))

/-- Element i of a register written. -/
def Co.setElem (c : Co) (r w i x : Nat) : Co :=
  if w = 4 then
    let a := r * c.vbytes + i / 2
    let b := (memGet c.v a).toNat
    { c with v := memSet c.v a (BitVec.ofNat 8 (if i % 2 = 0 then b / 16 * 16 + x % 16 else b % 16 + x % 16 * 16)) }
  else { c with v := memPut c.v (r * c.vbytes + i * (w / 8)) (leBytes (w / 8) x) }

/-- Bytes of a register from an offset. -/
def Co.vread (c : Co) (r off n : Nat) : List Byte := memBytes c.v (r * c.vbytes + off) n

/-- Bytes of a register written from an offset. -/
def Co.vwrite (c : Co) (r off : Nat) (b : List Byte) : Co := { c with v := memPut c.v (r * c.vbytes + off) b }

/-! ### Masks (R116) -/

/-- Bit i of a mask register. -/
def Co.mbit (c : Co) (r : BitVec 3) (i : Nat) : Bool := c.m[r.toNat].getLsbD i

/-- A mask register written. -/
def Co.setMask (c : Co) (r : BitVec 3) (x : BitVec 65536) : Co := { c with m := c.m.set r.toNat x }

/-- Bit i of a mask value replaced. -/
def maskPut (m : BitVec 65536) (i : Nat) (b : Bool) : BitVec 65536 :=
  if b then m ||| BitVec.twoPow 65536 i else m &&& ~~~BitVec.twoPow 65536 i

/-! ### The loop state (R75) -/

/-- lstate.BODY. -/
def lBody (l : Word) : Nat := field l 0 6
/-- lstate.DEPTH. -/
def lDepth (l : Word) : Nat := field l 6 3
/-- lstate.POS. -/
def lPos (l : Word) : Nat := field l 9 5
/-- lstate.CNTREG. -/
def lCnt (l : Word) : Nat := field l 14 5
/-- lstate.PTRREG. -/
def lPtr (l : Word) : Nat := field l 19 5
/-- lstate.STRREG. -/
def lStr (l : Word) : Nat := field l 24 5
/-- lstate.BOFF, sign-extended. -/
def lBoff (l : Word) : Word := sext (l.extractLsb' 32 32)

/-- lstate from its fields. -/
def mkLstate (boff : Word) (str ptr cnt pos depth body : Nat) : Word :=
  boff.extractLsb' 0 32 ++
    BitVec.ofNat 32 (str % 32 * 2 ^ 24 + ptr % 32 * 2 ^ 19 + cnt % 32 * 2 ^ 14 + pos % 32 * 2 ^ 9 + depth % 8 * 64 + body % 64)

/-- lstate as it stands relative to a head delta bytes further on, at body position pos. -/
def moveLstate (l delta : Word) (pos : Nat) : Word :=
  mkLstate (lBoff l - delta) (lStr l) (lPtr l) (lCnt l) pos (lDepth l) (lBody l)

/-- The rules that a loop state keeps (R75, R104). -/
def lstateOk (l : Word) : Bool :=
  lDepth l == 0 || (lDepth l ≤ 6 && lBody l != 0 && lBody l ≤ 32 && lPos l < lBody l && lCnt l != 0 &&
    lCnt l + lDepth l ≤ 32 && lStr l + lDepth l ≤ 32 && !(lCnt l ≤ lPtr l && lPtr l < lCnt l + lDepth l))

/-! ### fmode (R48) -/

/-- fmode.RM. -/
def Co.rm (c : Co) : Nat := c.fmode.toNat % 8

/-- Flags ORed in: NV 16, DZ 8, OF 4, UF 2, NX 1 (R48, R49). -/
def Co.orFlags (c : Co) (f : BitVec 5) : Co := { c with fmode := c.fmode ||| (f.setWidth 13 <<< 8) }

/-! ### The running coroutine of the core in focus -/

/-- The core that the instruction runs on. -/
def State.cur (s : State) : Core := s.core s.focus
/-- Its registers. -/
def State.co (s : State) : Co := s.cur.co
/-- The core replaced. -/
def State.setCur (s : State) (c : Core) : State := s.setCore s.focus c
/-- Its registers replaced. -/
def State.setCo (s : State) (c : Co) : State := s.setCur { s.cur with co := c }
/-- What else belongs to the coroutine. -/
def State.ext (s : State) : Ext := s.cur.ext
/-- That replaced. -/
def State.setExt (s : State) (e : Ext) : State := s.setCur { s.cur with ext := e }
/-- The executing chunk replaced. -/
def State.setChunk (s : State) (c : Chunk) : State := s.setCur { s.cur with chunk := c }
/-- The running occupancy of a slot, to which completions are addressed (R195). -/
def Core.who (c : Core) (g : CoreId) : Who :=
  { core := g, slot := c.running.getD 0, gen := (c.slot (c.running.getD 0)).gen }
/-- The running coroutine of the core in focus. -/
def State.who (s : State) : Who := s.cur.who s.focus

/-- The core issues nothing until an event has been performed (DESIGN CHOICE, log 4). -/
def State.stall (s : State) : State :=
  { s with stalled := if s.stalled.contains s.focus then s.stalled else s.focus :: s.stalled }

/-! ### Event counters (R76) -/

/-- Whether selector i counts an event, caused by a coroutine in the mode given or by none. -/
def pmcCounts (sel : BitVec 10) (ev : Nat) (by_ : Option Mode) : Bool :=
  sel.toNat % 256 == ev && ev != 0 &&
    match by_ with
    | some .user => sel.getLsbD 8
    | some .kernel => sel.getLsbD 9
    | none => sel.getLsbD 8 || sel.getLsbD 9

/-- n occurrences of an event counted. -/
def Core.count (c : Core) (ev n : Nat) (by_ : Option Mode) : Core :=
  { c with pmc := Vector.ofFn fun i => if pmcCounts c.pmcsel[i] ev by_ then c.pmc[i] + BitVec.ofNat 64 n else c.pmc[i] }

/-- An event that the running coroutine of a core causes, or none does. -/
def Core.countRun (c : Core) (ev n : Nat) : Core :=
  c.count ev n (if c.running.isSome then some c.co.mode else none)

end Sys2Proof.Machine
end

