-- ==== Sys2Proof/Machine/Space.lean ====
section
/-!
DEFINITION. Translation: the ASID table, the walk, the TLBs, permissions and windows (R300 to R305), and the alias
window (R136).
-/

namespace Sys2Proof.Machine

/-- The physical alias window (R136, R300). -/
def isAlias (va : Word) : Bool := field va 58 6 == 63

/-- The kinds of access that a translation distinguishes (R302). -/
inductive Kind where
  | fetch | load | store
  deriving DecidableEq, Repr

/-- The failing codeword that a miss met, whose error record its reader causes (R366, R368). -/
def Miss.bad : Miss → Option Pa
  | .data a => some a
  | _ => none

/-- On whose behalf an access is translated (R302, R310); a fresh one walks the tables whatever a TLB holds (R308); one may be a
core's run-ahead fetch. -/
structure Space where
  core   : Option CoreId
  cl     : Nat
  asid   : BitVec 14
  tenant : BitVec 6
  mode   : Mode
  fresh  : Bool := false
  ahead  : Bool := false
  deriving DecidableEq, Repr

/-- Who asks the walker on behalf of an access (R305). -/
def Space.asker (sp : Space) : Asker :=
  match sp.core with
  | some g => if sp.ahead then .ahead g else .core g
  | none => .engine sp.cl

/-- The core whose PAGE_WALK events carry on a walk that the asker has started. -/
def Asker.lead : Asker → CoreId
  | .core g => g
  | .ahead g => g
  | .engine cl => cl * 8

/-- The space of the running coroutine of a core. -/
def State.spaceOf (s : State) (g : CoreId) : Space :=
  let c := (s.core g).co
  { core := some g, cl := clusterOf g, asid := c.asid, tenant := c.tenant, mode := c.mode }

/-- The space of the core in focus. -/
def State.space (s : State) : Space := s.spaceOf s.focus

/-- Address bits that a leaf of a level leaves to the page (R301): level 1 maps 1 TiB, 2 256 MiB, 3 64 KiB. -/
def levelBits (level : Nat) : Nat := 52 - 12 * level

/-- The index that a level takes from the address (R300). -/
def levelIndex (va : Word) (level : Nat) : Nat := field va (levelBits level) 12

/-- A table entry with V = 1 is valid at a level in a walking package (R301). -/
def entryValid (pkg level : Nat) (e : Word) : Bool :=
  let pa := field e 12 46 * 4096
  field e 0 1 == 1 && field e 58 6 == 0 && field e 6 6 == 0 &&
    if field e 1 1 == 1 then
      level != 0 && pa % 2 ^ levelBits level == 0 && !(field e 4 1 == 1 && field e 3 1 == 0)
    else
      level != 3 && pa % 32768 == 0 && paPkg pa == pkg && paLocal pa + 32768 ≤ 768000000000

/-- The leaf translation that a valid leaf entry gives (R304). -/
def leafOf (asid : BitVec 14) (va : Word) (level : Nat) (e : Word) : Tlb where
  asid := asid
  size := levelBits level
  vpn := va.toNat / 2 ^ levelBits level
  ppn := field e 12 46 * 4096 / 2 ^ levelBits level
  x := field e 5 1 == 1
  w := field e 4 1 == 1
  rd := field e 3 1 == 1
  u := field e 2 1 == 1

/-- One read of a walk: the entry at a level, a leaf, the next table, or a miss (R301, R305). -/
inductive WalkRead where
  | leaf (t : Tlb)
  | next (table : Pa)
  | miss (m : Miss)
  deriving DecidableEq, Repr

/-- The walker reads the entry of a level in a table. -/
def State.walkRead (s : State) (pkg : Nat) (asid : BitVec 14) (va : Word) (level : Nat) (table : Pa) : WalkRead :=
  let a := table + 8 * levelIndex va level
  let e := memWord s.mem a
  if s.failing a then .miss (.data a)
  else if !entryValid pkg level e then .miss .page
  else if field e 1 1 == 1 then .leaf (leafOf asid va level e)
  else .next (field e 12 46 * 4096)

/-- The entry of an ASID in the package's ASID table, which lies in the package's HBM (R303). -/
def State.asidEntry (s : State) (pkg : Nat) (asid : BitVec 14) : Pa := pkg * 2 ^ 46 + paLocal (s.pkg pkg).asidbase.toNat + 16 * asid.toNat

/-- The level-0 table of a live ASID of the tenant (R303). -/
def State.rootOf (s : State) (pkg : Nat) (asid : BitVec 14) (tenant : BitVec 6) : Except Miss Pa :=
  let a := s.asidEntry pkg asid
  if s.failing a || s.failing (a + 8) then .error (.data a)
  else if field (memWord s.mem (a + 8)) 63 1 == 1 && field (memWord s.mem (a + 8)) 48 6 == tenant.toNat then
    .ok (field (memWord s.mem a) 15 43 * 32768)
  else .error .page

/-- A walk from a level on, fuel levels at most. -/
def State.walkFrom (s : State) (pkg : Nat) (asid : BitVec 14) (va : Word) : Nat → Nat → Pa → Except Miss Tlb
  | 0, _, _ => .error .page
  | fuel + 1, level, table =>
    match s.walkRead pkg asid va level table with
    | .leaf t => .ok t
    | .next t => s.walkFrom pkg asid va fuel (level + 1) t
    | .miss m => .error m

/-- A whole walk (R300 to R305). -/
def State.walk (s : State) (pkg : Nat) (asid : BitVec 14) (tenant : BitVec 6) (va : Word) : Except Miss Tlb :=
  match s.rootOf pkg asid tenant with
  | .error m => .error m
  | .ok root => s.walkFrom pkg asid va 4 0 root

/-- A TLB entry serves an address of an ASID. -/
def Tlb.hits (t : Tlb) (asid : BitVec 14) (va : Word) : Bool := t.asid == asid && va.toNat / 2 ^ t.size == t.vpn

/-- The TLB entry that serves an address: the core's, then the cluster's; none for a fresh walk (R304, R308). -/
def State.tlbEntry (s : State) (sp : Space) (va : Word) : Option Tlb :=
  let own := match sp.core with
    | some g => (s.core g).tlb
    | none => []
  if sp.fresh then none else (own ++ (s.cluster sp.cl).tlb).find? (·.hits sp.asid va)

/-- A walk serves a request: the same ASID and 64 KiB page (R305). -/
def Walk.serves (w : Walk) (asid : BitVec 14) (va : Word) : Bool := w.asid == asid && w.va.toNat / 65536 == va.toNat / 65536

/-- The walk that an access has joined or waited for has ended without a translation: the access meets that (R305). -/
def State.missedWalk (s : State) (sp : Space) (va : Word) : Option Miss :=
  if sp.fresh then none
  else ((s.pkg (sp.cl / 128)).missed.find? fun x => x.1 == sp.asker && x.2.1 == (sp.asid, va.toNat / 65536)).map (·.2.2)

/-- An access must wait for the walker at an address: no TLB serves it, and a walk of its page is in progress, which it joins, or
no slot is free for its own; unless that wait is over (R305). A fresh walk joins none (R308). -/
def State.mustWalk (s : State) (sp : Space) (va : Word) : Bool :=
  let y := s.pkg (sp.cl / 128)
  !isAlias va && (y.walks != [] || y.walkq != []) && !sp.fresh && (s.tlbEntry sp va).isNone && (s.missedWalk sp va).isNone &&
    (y.walks.any (·.serves sp.asid va) || 256 ≤ y.walks.length || y.walkq != [])

/-- The leaf for an address: from the core's TLB, the cluster's, the walk that it has waited for, or a walk of its own, which reads its
entries in one step and installs nothing; PAGE_WALK installs (R304, R305; DESIGN CHOICE, log 8). -/
def State.leaf (s : State) (sp : Space) (va : Word) : Except Miss Tlb :=
  match s.tlbEntry sp va with
  | some t => .ok t
  | none => match s.missedWalk sp va with
    | some m => .error m
    | none => s.walk (sp.cl / 128) sp.asid sp.tenant va

/-- The entries that a walk from a level on reads, fuel levels at most. -/
def State.walkEntries (s : State) (pkg : Nat) (asid : BitVec 14) (va : Word) : Nat → Nat → Pa → List Pa
  | 0, _, _ => []
  | fuel + 1, level, table =>
    (table + 8 * levelIndex va level) :: match s.walkRead pkg asid va level table with
      | .next t => s.walkEntries pkg asid va fuel (level + 1) t
      | _ => []

/-- What an access reads of the tables at an address: its ASID's entry and those of its own walk (R303, R305, R365). -/
def State.walkReads (s : State) (sp : Space) (va : Word) : List (Pa × Nat) :=
  let p := sp.cl / 128
  if isAlias va || (s.tlbEntry sp va).isSome || (s.missedWalk sp va).isSome then []
  else (s.asidEntry p sp.asid, 16) :: match s.rootOf p sp.asid sp.tenant with
    | .ok root => (s.walkEntries p sp.asid va 4 0 root).map fun a => (a, 8)
    | .error _ => []

/-- A request of an asker: it joins the walk of its page in progress, or waits for a slot in arrival order (R305). -/
def Pkg.ask (y : Pkg) (a : Asker) (asid : BitVec 14) (va : Word) : Pkg :=
  let page := fun (q : Asker × BitVec 14 × Word) => q.1 == a && q.2.1 == asid && q.2.2.toNat / 65536 == va.toNat / 65536
  if y.walks.any (·.serves asid va) then
    { y with walks := y.walks.map fun w => if w.serves asid va && !w.askers.contains a then { w with askers := w.askers ++ [a] } else w }
  else if y.walkq.any page then y
  else { y with walkq := y.walkq ++ [(a, asid, va)] }

/-- The asker waits for a walk of the page already. -/
def Pkg.asked (y : Pkg) (a : Asker) (asid : BitVec 14) (va : Word) : Bool :=
  (y.walks.any fun w => w.serves asid va && w.askers.contains a) ||
    y.walkq.any fun q => q.1 == a && q.2.1 == asid && q.2.2.toNat / 65536 == va.toNat / 65536

/-- An asker has met what the walks that it waited for have found (R305). -/
def State.takeMissed (s : State) (p : Nat) (a : Asker) : State :=
  if (s.pkg p).missed = [] then s else s.setPkg p { s.pkg p with missed := (s.pkg p).missed.filter (·.1 != a) }

/-- The leaf permits the access: kind, mode, and the whole page inside one window (R302). -/
def State.permits (s : State) (sp : Space) (k : Kind) (t : Tlb) : Bool :=
  (match k with
    | .fetch => t.x
    | .load => t.rd
    | .store => t.rd && t.w) &&
  (sp.mode == .kernel || t.u) &&
  s.inWindow (sp.cl / 128) sp.tenant.toNat (t.ppn * 2 ^ t.size) (2 ^ t.size)

/-- A translated address below the alias window, with the leaf's U bit. -/
def State.translatePage (s : State) (sp : Space) (k : Kind) (va : Word) : Except Miss (Pa × Bool) :=
  if isAlias va then .error .page
  else match s.leaf sp va with
    | .error m => .error m
    | .ok t => if s.permits sp k t then .ok (t.ppn * 2 ^ t.size + va.toNat % 2 ^ t.size, t.u) else .error .page

/-- Where a run of bytes lies: physical address, length, and whether the page is user's. -/
structure Seg where
  pa  : Pa
  len : Nat
  u   : Bool
  deriving DecidableEq, Repr

/-- The n bytes at a virtual address, page by page, fuel pages at most: the segments, or the miss with the lowest byte
that lies in a failing page (R95). -/
def State.translatePages (s : State) (sp : Space) (k : Kind) : Nat → Word → Nat → Except (Miss × Word) (List Seg)
  | _, _, 0 => .ok []
  | 0, va, _ => .error (.page, va)
  | fuel + 1, va, n =>
    let n1 := min n (65536 - va.toNat % 65536)
    match s.translatePage sp k va with
    | .error m => .error (m, va)
    | .ok (pa, u) =>
      match s.translatePages sp k fuel (va + BitVec.ofNat 64 n1) (n - n1) with
      | .error e => .error e
      | .ok r => .ok (⟨pa, n1, u⟩ :: r)

/-- Every byte of a run translated before any is accessed (R95, R136). -/
def State.translate (s : State) (sp : Space) (k : Kind) (va : Word) (n : Nat) : Except (Miss × Word) (List Seg) :=
  if isAlias va then
    if s.inWindow (sp.cl / 128) sp.tenant.toNat (va.toNat % 2 ^ 58) n then .ok [⟨va.toNat % 2 ^ 58, n, true⟩]
    else .error (.page, va)
  else s.translatePages sp k (n / 65536 + 2) va n

/-- The first address of a run at which the core must wait for the walker, page by page, fuel pages at most (R305). -/
def State.walkWait (s : State) (sp : Space) : Nat → Word → Nat → Option Word
  | _, _, 0 => none
  | 0, _, _ => none
  | fuel + 1, va, n =>
    let n1 := min n (65536 - va.toNat % 65536)
    if s.mustWalk sp va then some va else s.walkWait sp fuel (va + BitVec.ofNat 64 n1) (n - n1)

/-- The physical address of each byte of the segments, in order. -/
def segBytes : List Seg → List Pa
  | [] => []
  | g :: r => (List.range g.len).map (g.pa + ·) ++ segBytes r

end Sys2Proof.Machine
end

