-- ==== Sys2Proof/Machine/Mmio.lean ====
section
/-!
DEFINITION. The kernel MMIO registers: the cluster and core blocks (R182, R299, R326, R327), the tenant's block and
queues (R312 to R314), the host and park blocks (R333, R347) and the snapshot controls (R373).
-/

namespace Sys2Proof.Machine

/-- A register of the map: the block it lies in and its offset there. -/
inductive Reg8 where
  | cluster (cl off : Nat)
  | core (g : CoreId) (off : Nat)
  | grexa (off : Nat)
  | tenant (t off : Nat)
  | queue (t q off : Nat)
  | host (t off : Nat)
  | park (t off : Nat)
  | snapshot (off : Nat)
  | none
  deriving DecidableEq, Repr

/-- The register at an offset of the package MMIO block. -/
def packageReg (o : Nat) : Reg8 :=
  if o < 0x100000 then .grexa o
  else if o < 0x500000 then
    let t := (o - 0x100000) / 0x10000
    let r := (o - 0x100000) % 0x10000
    if 0x1000 ≤ r ∧ r < 0x1400 then .queue t ((r - 0x1000) / 0x40) (r % 0x40) else .tenant t r
  else if 0x500000 ≤ o ∧ o < 0x540000 then .host ((o - 0x500000) / 0x1000) (o % 0x1000)
  else if 0x600000 ≤ o ∧ o < 0x640000 then .park ((o - 0x600000) / 0x1000) (o % 0x1000)
  else if 0x700000 ≤ o ∧ o < 0x700020 then .snapshot (o - 0x700000)
  else .none

/-- The register at a pod physical address (R298, R299, R312, R333, R347, R373). -/
def State.regAt (s : State) (pa : Pa) : Reg8 :=
  match s.region pa with
  | .clusterMmio k =>
    let o := paLocal pa % 2 ^ 20
    if o < 0x10000 then .cluster (paPkg pa * 128 + k) o
    else if o < 0x90000 then .core (paPkg pa * 1024 + k * 8 + (o / 0x10000 - 1)) (o % 0x10000)
    else .none
  | .packageMmio => packageReg (paLocal pa - 0x300008000000)
  | _ => .none

/-- STATE of a commanded slot (R326). -/
def slotCode (st : SlotState) : BitVec 4 :=
  match st with
  | .free => 0 | .running => 1 | .signalled => 2 | .suspended => 3
  | .spilled => 4 | .refilling => 5 | .evicted => 6 | .halted => 7

/-- What a load of a register gives; none for an offset that no map lists. Write-only fields read as zero (R6). -/
def State.mmioRead (s : State) (pa : Pa) : Option Word :=
  let p := paPkg pa
  match s.regAt pa with
  | .cluster cl o =>
    match o with
    | 0x100 => some (s.cluster cl).marbw
    | 0x108 => some (s.cluster cl).l2cfg
    | 0x110 => some (s.cluster cl).swsave
    | _ => none
  | .core g o =>
    match o with
    | 0x00 => some ((s.core g).ctxbase.setWidth 64)
    | 0x08 => some 0
    | 0x10 => some (BitVec.ofNat 64 (((s.core g).busy.toNat) * 2 ^ 63 + (match (s.core g).cmdSlot with
        | some k => slotCode ((s.core g).slot k.toNat).st
        | none => 0).toNat))
    | _ => none
  | .grexa o => if o = 0 then some 0 else none
  | .tenant t o =>
    let x := s.tenant p t
    if o = 0x00 then some (BitVec.ofNat 64 (x.cfg.granw.toNat * 4 + x.cfg.classmax.toNat))
    else if o = 0x08 then some (x.cfg.clset.extractLsb' 0 64)
    else if o = 0x10 then some (x.cfg.clset.extractLsb' 64 64)
    else if o = 0x18 then some (BitVec.ofNat 64 (x.cfg.pbase.toNat * 2 ^ 32 + x.cfg.pcount.toNat))
    else if o = 0x20 then some x.fqbase
    else if o = 0x28 then some (x.fqvec <<< 8 ||| x.fqlog2)
    else if o = 0x30 then some (x.fqhead.setWidth 64)
    else if o = 0x38 then some (x.fqtail.setWidth 64)
    else if o = 0x40 then some x.fqlost
    else if o = 0x48 then some 0
    else if h : 0x80 ≤ o ∧ o < 0x100 ∧ o % 8 = 0 then some (x.stages[(o - 0x80) / 8]'(by omega))
    else none
  | .queue t q o =>
    let x := (s.tenant p t).queues[q % 16]'(Nat.mod_lt _ (by decide))
    match o with
    | 0x00 => some x.qbase
    | 0x08 => some x.ctl
    | 0x10 => some x.qtok
    | 0x18 => some (x.qhead.setWidth 64)
    | 0x20 => some 0
    | 0x28 => some (BitVec.ofNat 64 (x.ovf.toNat * 2 + x.sel.toNat))
    | _ => none
  | .host t o =>
    let x := s.tenant p t
    if h : o < 0x80 ∧ o % 8 = 0 then some (x.apers[o / 8]'(by omega))
    else if o = 0x80 then some x.hsiga
    else if o = 0x88 then some 0
    else none
  | .park t o =>
    let x := s.tenant p t
    match o with
    | 0x00 => some x.ndwell
    | 0x08 => some x.fdwell
    | 0x10 => some x.blog2
    | 0x18 => some (BitVec.ofNat 64 (x.pused * 2 ^ 32 + x.cfg.plimit % 2 ^ 17))
    | 0x20 => some 0
    | _ => none
  | .snapshot o =>
    let x := (s.pkg p).snap
    match o with
    | 0x00 => some (BitVec.ofNat 64 (x.arm.toNat * 2 ^ 63 + x.fclass.toNat))
    | 0x08 => some x.tenants
    | 0x10 => some 0
    | 0x18 => some (BitVec.ofNat 64 (x.count.toNat % 2 ^ 16 * 2 ^ 32 + x.src.toNat % 4))
    | _ => none
  | .none => none

/-- A write of FQVEC and FQLOG2; FQLOG2 above 16 keeps the old one (R313). -/
def Tenant.faultQueueWrite (x : Tenant) (v : Word) : Tenant :=
  { x with fqvec := BitVec.ofNat 64 (field v 8 5)
           fqlog2 := if field v 0 5 ≤ 16 then BitVec.ofNat 64 (field v 0 5) else x.fqlog2 }

/-- A write of a launch queue's register at an offset (R314). QHEAD takes a write only while EN = 0; a head that is read and not
selected is then read again, at the new place (DEDUCED, log 38). -/
def Queue.write (x : Queue) (off : Nat) (v : Word) : Queue :=
  match off with
  | 0x00 => { x with qbase := v &&& 0x03FFFFFFFFFFFFC0 }
  | 0x08 =>
    let n := if field v 0 5 ≤ 16 then field v 0 5 else field x.ctl 0 5
    { x with ctl := (v &&& 0x80003FFF00030000) ||| BitVec.ofNat 64 n }
  | 0x10 => { x with qtok := v &&& 0x03FFFFFFFFFFFFF8 }
  | 0x18 =>
    if field x.ctl 63 1 = 1 then x
    else if x.sel = 1 then { x with qhead := v.setWidth 32 }
    else { x with qhead := v.setWidth 32, head := none, eligible := none, after := [] }
  | 0x28 => if field v 1 1 = 1 then { x with ovf := false } else x
  | _ => x

/-- A write of a tenant's launch queue, with the distributor's registration at a queue that is enabled (R316). -/
def State.queueWrite (s : State) (p : Nat) (t : BitVec 6) (q off : Nat) (v : Word) : State :=
  let x := s.tenant p t.toNat
  let old := x.queues[q % 16]'(Nat.mod_lt _ (by decide))
  let new := old.write off v
  let s := s.setTenant p t.toNat { x with queues := x.queues.set (q % 16) new (Nat.mod_lt _ (by decide)) }
  if off = 0x08 ∧ field new.ctl 63 1 = 1 then s.posts [.launchTokenFiring p t (BitVec.ofNat 4 q), .instanceBind p t] else s

/-- A binding of the tenant that waits for a slot is tried again; a continuation that waits for one is placed before anything else happens
(R323, R351). -/
def State.wakeBind (s : State) (p : Nat) (t : BitVec 6) : State :=
  let s1 := if (s.pkg p).waitSlot = [] then s else s.soon (.parkWaitSlotPlace p t)
  if (s.tenant p t.toNat).bind.isSome then s1.post (.instanceBind p t) else s1

/-- A write of CTXBASE, ignored while a slot of the core is not free (R326); the core may now hold coroutines (R381). -/
def State.ctxbaseWrite (s : State) (g : CoreId) (v : Word) : State :=
  let c := s.core g
  if c.slots.any (fun x => x.2.st != .free) then s
  else (s.setCore g { c with ctxbase := (v &&& 0x03FFFFFFFFFFF000).setWidth 58 }).wakeBind (pkgOf g) (s.cluster (clusterOf g)).tenant

/-- A write of L2CFG (R327). -/
def State.l2cfgWrite (s : State) (cl : Nat) (v : Word) : State :=
  s.setCluster cl { s.cluster cl with l2cfg := v &&& 0x17 }

/-- A write of BLOG2; values outside 12 to 26 are ignored, and a new value empties the tenant's block caches (R347, R354). -/
def Tenant.blog2Write (x : Tenant) (v : Word) : Tenant :=
  if 12 ≤ field v 0 5 ∧ field v 0 5 ≤ 26 then { x with blog2 := BitVec.ofNat 64 (field v 0 5) } else x

/-- A command record read for the TLBINV queue (R306): a tenant's record lies in the tenant's windows. R306 has the record in this package's
HBM and its address aligned, and says nothing of another: a misaligned one has no effect and one that lies elsewhere is read where it
lies; nor does it give a record with an uncorrectable error a fate: its bytes are read as they stand (DESIGN CHOICE, log 66). -/
def State.tlbinvPush (s : State) (p : Nat) (t : Option (BitVec 6)) (a : Pa) : State :=
  let ok := match t with
    | some t => s.inWindow p t.toNat a 32
    | none => true
  if ok && a % 8 == 0 then
    let e := (t, memWord s.mem a, memWord s.mem (a + 8), memWord s.mem (a + 16))
    (s.setPkg p { s.pkg p with tlbinv := (s.pkg p).tlbinv ++ [e] }).post (.tlbinvComplete p)
  else s

/-- A token operation that a register of a tenant makes, on the word that the register names now: only where the word lies in a window of
the tenant (R311, R315, R333; DEDUCED for QTOK, log 25). -/
def State.tokenRequest (s : State) (p : Nat) (t : BitVec 6) (pa : Pa) (e : Event) : State :=
  if s.inWindow p t.toNat pa 8 then s.soon e else s

/-- A store of a register performed at its chunk's commit point (R299). -/
def State.mmioWrite (s : State) (pa : Pa) (v : Word) : State :=
  let p := paPkg pa
  match s.regAt pa with
  | .cluster cl o =>
    match o with
    | 0x100 => s.setCluster cl { s.cluster cl with marbw := v }
    | 0x108 => s.l2cfgWrite cl v
    | 0x110 => s.setCluster cl { s.cluster cl with swsave := v &&& 0x03FFFFFFFFFFF000 }
    | _ => s
  | .core g o =>
    match o with
    | 0x00 => s.ctxbaseWrite g v
    | 0x08 =>
      let slot := BitVec.ofNat 8 (field v 0 8)
      let s1 := s.setCore g { s.core g with busy := true, cmdSlot := some slot }
      match field v 8 2 with
      | 1 => s1.soon (.slotEvict g slot)
      | 2 => s1.soon (.slotRestore g slot)
      | 3 => s1.soon (.slotRelease g slot)
      | _ => s
    | _ => s
  | .grexa o => if o = 0 then s.tlbinvPush p none v.toNat else s
  | .tenant t o =>
    let x := s.tenant p t
    if o = 0x20 then s.setTenant p t { x with fqbase := v &&& 0x03FFFFFFFFFFFF00 }
    else if o = 0x28 then s.setTenant p t (x.faultQueueWrite v)
    else if o = 0x30 then s.setTenant p t { x with fqhead := v.setWidth 32 }
    else if o = 0x40 then s.setTenant p t { x with fqlost := v &&& 0xFFFFFFFF }
    else if o = 0x48 then s.tlbinvPush p (some (BitVec.ofNat 6 t)) v.toNat
    else if h : 0x80 ≤ o ∧ o < 0x100 ∧ o % 8 = 0 then
      s.setTenant p t { x with stages := x.stages.set ((o - 0x80) / 8) (v &&& 0x80000000007F00FF) (by omega) }
    else s
  | .queue t q o =>
    if o = 0x20 then
      let pa := ((s.tenant p t).queues[q % 16]'(Nat.mod_lt _ (by decide))).qtok.toNat
      s.tokenRequest p (BitVec.ofNat 6 t) pa (.tokenRaiseAtHome (.unit p (BitVec.ofNat 6 t) 0) pa (signed 32 v.toNat))
    else s.queueWrite p (BitVec.ofNat 6 t) q o v
  | .host t o =>
    let x := s.tenant p t
    if h : o < 0x80 ∧ o % 8 = 0 then
      s.setTenant p t { x with apers := x.apers.set (o / 8) (v &&& 0x83FFFFFF00000000) (by omega) }
    else if o = 0x80 then s.setTenant p t { x with hsiga := v &&& 0x03FFFFFFFFFFFFF8 }
    else if o = 0x88 then
      if x.hsiga = 0 then s else s.tokenRequest p (BitVec.ofNat 6 t) x.hsiga.toNat (.tokenSignalAtHome (.unit p (BitVec.ofNat 6 t) 0) x.hsiga.toNat (signed 32 v.toNat))
    else s
  | .park t o =>
    let x := s.tenant p t
    match o with
    | 0x00 => s.setTenant p t { x with ndwell := v &&& 0xFFFFFFFF }
    | 0x08 => s.setTenant p t { x with fdwell := v &&& 0xFFFFFFFF }
    | 0x10 => (s.setTenant p t (x.blog2Write v)).soon (.blog2Write p (BitVec.ofNat 6 t) v)
    | 0x20 => s.soon (.fwreq p (BitVec.ofNat 6 t) (field v 6 52 * 64))
    | _ => s
  | .snapshot o =>
    let y := s.pkg p
    match o with
    | 0x00 => s.setPkg p { y with snap := { y.snap with arm := field v 63 1 == 1, fclass := v &&& 0xFF } }
    | 0x08 => s.setPkg p { y with snap := { y.snap with tenants := v } }
    | 0x10 => s.soon (.snaptrig p)
    | _ => s
  | .none => s

/-- The registers that a request from outside the cores reaches: a tenant's virtual function its tenant block and its host block (R312, R332,
R333); Grexa and physical function 0 all but the cores' blocks, which only coroutines reach (R326, R373). -/
def State.hostReaches (s : State) (vf : Option (BitVec 6)) (pa : Pa) : Bool :=
  match vf, s.regAt pa with
  | some t, .tenant u _ => u == t.toNat
  | some t, .queue u _ _ => u == t.toNat
  | some t, .host u _ => u == t.toNat
  | some _, _ => false
  | none, .core _ _ => false
  | none, _ => true

/-- A store of this register puts a command into the TLBINV queue of its package (R306). -/
def State.isTlbinv (s : State) (pa : Pa) : Bool :=
  match s.regAt pa with
  | .grexa o => o == 0
  | .tenant _ o => o == 0x48
  | _ => false

/-- A store of this register gives a slot command (R326). -/
def State.isCommand (s : State) (pa : Pa) : Bool :=
  match s.regAt pa with
  | .core _ o => o == 0x08
  | _ => false

/-- A store of this register holds its chunk's commit, where n stores of the chunk before it put a command into the TLBINV queue: a
slot command while one is in progress (R326), a TLBINV whose queue is full (R306), a write to CBHI while a collective of the
cluster is outstanding (R327). -/
def State.mmioHeld (s : State) (n : Nat) (pa : Pa) : Bool :=
  match s.regAt pa with
  | .core g o => o == 0x08 && (s.core g).busy
  | .grexa o => o == 0 && 64 ≤ (s.pkg (paPkg pa)).tlbinv.length + n
  | .tenant _ o => o == 0x48 && 64 ≤ (s.pkg (paPkg pa)).tlbinv.length + n
  | .cluster cl o => o == 0x108 && (List.range 8).any fun j => !(s.core (cl * 8 + j)).colls.isEmpty
  | _ => false

/-- One of the stores of a chunk holds its commit. -/
def State.mmioHeldBy (s : State) (ws : List (Pa × Word)) : Bool :=
  (List.range ws.length).any fun i =>
    s.mmioHeld ((ws.take i).filter fun w => s.isTlbinv w.1).length (ws.getD i (0, 0)).1

/-- A store of this register could never be performed at one commit point with these of its chunk before it: a second command to
the slots of one core, of which the first is still in progress then, or a 65th TLBINV command (R306, R326; DEDUCED, log 9). -/
def State.mmioClash (s : State) (ws : List (Pa × Word)) (pa : Pa) : Bool :=
  (s.isCommand pa && ws.any (·.1 == pa)) || (s.isTlbinv pa && 64 ≤ (ws.filter fun w => s.isTlbinv w.1).length)

end Sys2Proof.Machine
end

