-- ==== Sys2Proof/Machine/Words.lean ====
section
/-!
DEFINITION. Words in memory that units of the package act on: the token word (R223, R225), the block-table entry and the park entry that names
its table (R148, R343, R345, R358), and what a wake does to them (R350).
-/

namespace Sys2Proof.Machine

/-! ### The token word (R223, R225) -/

/-- CNT, signed. -/
def tokCnt (w : Word) : Int := signed 32 (field w 0 32)
/-- GEN. -/
def tokGen (w : Word) : BitVec 16 := w.extractLsb' 32 16
/-- HW. -/
def tokHw (w : Word) : Bool := w.getLsbD 51
/-- STRICT and OVR are both set (R210). -/
def tokOverrun (w : Word) : Bool := w.getLsbD 50 && w.getLsbD 49

/-- An integer clamped to 32 signed bits. -/
def sat32 (x : Int) : Int := max (-2147483648) (min 2147483647 x)

/-- CNT replaced. -/
def tokSetCnt (w : Word) (x : Int) : Word := setField w 0 32 (wrap 32 x)

/-- arm(w, op): FIRED and OVR cleared, GEN kept. -/
def tokArm (w op : Word) : Word :=
  BitVec.ofNat 64 (field op 51 1 * 2 ^ 51 + field op 50 1 * 2 ^ 50 + field w 32 16 * 2 ^ 32 + field op 0 32)

/-- fire(w). -/
def tokFire (w : Word) : Word := setField (setField w 48 1 1) 32 16 (field w 32 16 + 1)

/-- raise(w, a): the word, and whether it fires. -/
def tokRaise (w : Word) (a : Int) : Word × Bool :=
  if tokCnt w < a then (tokFire (tokSetCnt w (sat32 a)), true) else (w, false)

/-- signal(w, a): the word, and whether it fires. -/
def tokSignal (w : Word) (a : Int) : Word × Bool :=
  if tokHw w then tokRaise w a
  else
    let new := sat32 (tokCnt w + a)
    let w1 := tokSetCnt w new
    let w2 := if a < 0 ∧ new < 0 then setField w1 49 1 1 else w1
    if 0 < tokCnt w ∧ new ≤ 0 ∧ field w 48 1 = 0 then (tokFire w2, true) else (w2, false)

/-! ### The block table as the engine sees it (R148, R343, R345) -/

/-- The address of entry k of a table. -/
def tableEntry (btab k : Nat) : Pa := btab + 0x40 + 8 * k

/-- Entry k of a table. -/
def State.tableWord (s : State) (btab k : Nat) : Word := memWord s.mem (tableEntry btab k)

/-- TIER of an entry. -/
def entryTier (e : Word) : Nat := field e 62 2
/-- MOV of an entry. -/
def entryMov (e : Word) : Bool := e.getLsbD 61
/-- PA of an entry. -/
def entryPa (e : Word) : Nat := field e 0 58

/-- An entry from its fields. -/
def mkEntry (tier : Nat) (mov : Bool) (pa : Nat) : Word := BitVec.ofNat 64 (tier % 4 * 2 ^ 62 + mov.toNat * 2 ^ 61 + pa % 2 ^ 58)

/-- A block's key in Grexa's counts: its address, and whether that is one of flash (R349, R357). -/
def blockKey (tier pa : Nat) : Nat := if tier = 2 then 2 ^ 58 + pa else pa

/-- The block that an entry names is shared: it is never moved (R358). -/
def State.shared (s : State) (p : Nat) (e : Word) : Bool := 1 < Tab.get 0 (s.pkg p).counts (blockKey (entryTier e) (entryPa e))

/-! ### Park entries (R345, R359) -/

/-- A park entry. -/
def State.entry (s : State) (p e : Nat) : Option ParkEntry := ((s.pkg p).park.find? (·.1 == e)).map (·.2)

/-- A park entry changed, and the mirror with it (R359). -/
def State.setEntry (s : State) (p e : Nat) (x : ParkEntry) : State :=
  let y := s.pkg p
  s.setPkg p { y with park := Tab.set y.park e x, mirror := Tab.set y.mirror e x }

/-- The move of an entry that is under way. -/
def State.mover (s : State) (p e : Nat) : Option Mover := (s.pkg p).movers.find? (·.entry == e)

/-- n of R350: the blocks that are not near or are moving, absent and shared ones apart. -/
def State.awayBlocks (s : State) (p : Nat) (x : ParkEntry) : Nat :=
  ((List.range x.nused).filter fun k =>
    let e := s.tableWord x.btab k
    (entryTier e == 1 || entryTier e == 2 || (entryMov e && entryTier e == 0)) && !s.shared p e).length

/-- RDEPTH of the entry's block table, where the engine reads it (R344, R345). -/
def State.rdepth (s : State) (x : ParkEntry) : Nat := (memGet s.mem (x.btab + 0x20)).toNat

/-- The entry has taken a wake write of a value: it promotes, once the move in flight has completed (R350). -/
def ParkEntry.woke (x : ParkEntry) (v : Word) (moving : Bool) : ParkEntry :=
  if moving then { x with woken := true, wval := v } else { x with woken := true, wval := v, st := 3, pos := x.nused }

/-- The watches of a word taken off by a write of a value, with the entries that they wake (R350). -/
def State.wakeEntries (s : State) (pa : Pa) (v : Word) : State × List ParkEntry :=
  let p := paPkg pa
  let y := s.pkg p
  let es := y.park.filter fun x => (y.watches.any fun w => w == (pa, x.1))
  let s1 := s.setPkg p { y with watches := y.watches.filter (·.1 != pa) }
  (es.foldl (fun s x => s.setEntry p x.1 (x.2.woke v (s.mover p x.1).isSome)) s1, es.map (·.2))

end Sys2Proof.Machine
end

