-- ==== Sys2Proof/Machine/Chunk.lean ====
section
/-!
DEFINITION. Chunks: accesses inside one and its squash (R85, R95, R96, R136, R137, R247 to R257, R259), what is posted to other packages
(R261), and the writes at a home (R262, R350).
-/

namespace Sys2Proof.Machine

/-! ### Where an access may go -/

/-- Cause of a failed access by its kind (R302): 4 fetch, 5 load, 6 store. -/
def Kind.cause : Kind → Nat
  | .fetch => 4
  | .load => 5
  | .store => 6

/-- Cause of a failed translation: the page fault of its kind, or a data error on the walk (R366). -/
def Miss.cause (m : Miss) (k : Kind) : Nat :=
  match m with
  | .page => k.cause
  | _ => 8

/-- A trap to be taken: cause, etval, estat.INFO, and the codeword that an error record names. -/
structure Trap where
  cause : Nat
  val   : Word
  info  : Nat
  bad   : Option Pa
  deriving DecidableEq, Repr

/-- What an access comes to: done, a trap with what its translations have counted (R76), the chunk ends before it (R248), it waits for
another chunk (R254), or for the walker at an address (R305). -/
inductive Acc (α : Type) where
  | ok (s : State) (a : α)
  | trap (s : State) (t : Trap)
  | cut
  | wait
  | walk (va : Word)

/-- The target permits the access (R96, R137, R299): no granary, no hole, no store to a token cell, kernel MMIO only
where the instruction and the page allow it. -/
def Region.permits (r : Region) (k : Kind) (mmio : Bool) : Bool :=
  match r with
  | .granary _ => false
  | .hole => false
  | .cell _ => k != .store
  | .clusterMmio _ => mmio
  | .packageMmio => mmio
  | _ => true

/-- Kernel MMIO takes aligned doublewords through kernel pages, at offsets that a map lists (R299). A core's block takes them
from this package's coroutines of the tenant that has the core's cluster alone (R326), a tenant's blocks from that tenant's (R312, R333,
R347), and Grexa's register and the snapshot controls from none (R306, R373). -/
def State.mmioOk (s : State) (sp : Space) (scalar : Bool) (va : Word) (n : Nat) (g : Seg) : Bool :=
  let src := sp.cl / 128
  let owner := fun (t : Nat) => match s.localTenant (paPkg g.pa) src sp.tenant with
    | some lt => lt.toNat == t
    | none => false
  scalar && n == 8 && va.toNat % 8 == 0 && !g.u && (s.mmioRead g.pa).isSome &&
    match s.regAt g.pa with
    | .core h _ => pkgOf h == src && (s.cluster (clusterOf h)).tenant == sp.tenant
    | .tenant t _ | .queue t _ _ | .host t _ | .park t _ => owner t
    | .grexa _ | .snapshot _ => false
    | _ => true

/-- The first segment whose target does not permit the access, by its offset in the access. -/
def State.badTarget (s : State) (sp : Space) (k : Kind) (scalar : Bool) (va : Word) (n : Nat) : Nat → List Seg → Option Nat
  | _, [] => none
  | o, g :: r =>
    let ok := s.mmioOk sp scalar va n g
    if (s.region g.pa).permits k ok && (s.region (g.pa + g.len - 1)).permits k ok then
      s.badTarget sp k scalar va n (o + g.len) r
    else some o

/-- A range lock that this kind of access meets at a byte (R259). -/
def Lock.blocks (l : Lock) (store : Bool) (pa : Pa) : Bool :=
  l.lo ≤ pa && pa < l.lo + l.len && (store || !l.src)

/-- The first locked byte of an access and the token of the lock's owner. -/
def firstLocked (ls : List Lock) (store : Bool) : Nat → List Pa → Option (Nat × Pa)
  | _, [] => none
  | o, pa :: r =>
    match ls.find? (·.blocks store pa) with
    | some l => some (o, l.token)
    | none => firstLocked ls store (o + 1) r

/-- Translation, target and range locks of an access, in that order (R95, R96, R137, R259). The locks are those registered so
far: a store of the chunk whose commit registers a lock comes before the registering command in program order, which ends the
chunk, and does not trap (DEDUCED, log 47: the last sentence of R96). -/
def State.reach (s : State) (sp : Space) (k : Kind) (scalar : Bool) (va : Word) (n : Nat) : Except Trap (List Seg) :=
  match s.translate sp k va n with
  | .error (m, a) => .error ⟨m.cause k, a, 0, m.bad⟩
  | .ok segs =>
    match s.badTarget sp k scalar va n 0 segs with
    | some o => .error ⟨k.cause, va + BitVec.ofNat 64 o, 0, none⟩
    | none =>
      match firstLocked (s.pkg (sp.cl / 128)).locks (k == .store) 0 (segBytes segs) with
      | some (o, tok) => .error ⟨7, va + BitVec.ofNat 64 o, tok, none⟩
      | none => .ok segs

/-- The access leaves the package. -/
def remote (p : Nat) (segs : List Seg) : Bool := segs.any fun g => paPkg g.pa != p

/-- The access is one of a kernel MMIO register. -/
def State.isMmio (s : State) (segs : List Seg) : Bool :=
  segs.any fun g => match s.region g.pa with
    | .clusterMmio _ => true
    | .packageMmio => true
    | _ => false

/-! ### Reads and writes inside a chunk -/

/-- The chunk's own store to a byte. -/
def Chunk.stored (k : Chunk) (pa : Pa) : Option Byte := (k.writes.find? (·.1 == pa)).map (·.2)

/-- The store to a byte of the executing chunk, or of the one before it that waits for the weir (R250). -/
def Core.stored (c : Core) (pa : Pa) : Option Byte := (c.chunk.stored pa).or (c.waiting.bind (·.stored pa))

/-- A byte as the coroutine sees it: its own store, else committed memory (R85, R247, R250). -/
def Core.byte (c : Core) (m : List Host.Cell) (pa : Pa) : Byte := (c.stored pa).getD (memGet m pa)

/-- The lines of bytes that a list does not hold yet, each once. -/
def newLines (old : List Nat) (pas : List Pa) : List Nat := (pas.map lineOf).eraseDups.filter fun l => !old.contains l

/-- Bits set in the read signature by lines (R249). -/
def signature (ls : List Nat) : BitVec 2048 :=
  ls.foldl (fun b l => b ||| BitVec.twoPow 2048 (Config.sigHash l).1.toNat ||| BitVec.twoPow 2048 (Config.sigHash l).2.toNat) 0

/-- The number of one bits. -/
def popcount {w : Nat} (x : BitVec w) : Nat := (List.range w).foldl (fun n i => n + (x.getLsbD i).toNat) 0

/-- Reading the lines ends the chunk before the access: the signature is saturated and would take a further bit (R249).
Below 512 lines no signature is saturated, and the first access of a chunk never ends it (R142). -/
def Chunk.readCut (c : Chunk) (new : List Nat) : Bool :=
  c.reads != [] && 512 < c.reads.length + new.length &&
    1024 ≤ popcount (signature c.reads) && signature (c.reads ++ new) != signature c.reads

/-- Writing the lines would take the footprint beyond 2,048 lines (R249). -/
def Chunk.writeCut (c : Chunk) (new : List Nat) : Bool := new != [] && c.wrote != [] && 2048 < c.wrote.length + new.length

/-- The lines that the uncommitted chunks of a core have written (R250). -/
def Core.wroteLines (c : Core) : List Nat := c.chunk.wrote ++ (c.waiting.map (·.wrote)).getD []

/-- A read of another core's scratchpad meets a line that an uncommitted chunk of the owner has written (R254). -/
def State.ownerBusy (s : State) (g : CoreId) (pas : List Pa) : Bool :=
  pas.any fun pa => match s.region pa with
    | .scratch c =>
      let o := paPkg pa * 1024 + c
      o != g && (s.core o).running.isSome && (s.core o).wroteLines.contains (lineOf pa)
    | _ => false

/-- A line is cached in L1: one of this package's HBM or CXL memory (R253). -/
def State.inL1 (s : State) (l : Nat) : Bool :=
  match s.region (l * 128) with
  | .hbm => true
  | .cxl _ => true
  | _ => false

/-- Lines of 128 bytes that an L1 of 1 MiB holds (R2). -/
def l1Lines : Nat := 8192

/-- Ways of an L1 set (DESIGN CHOICE, log 12). -/
def l1Ways : Nat := 2 ^ Config.l1WaysLog.val

/-- The L1 set of a line: the sets and their ways make up the whole L1 (R2; DESIGN CHOICE, log 12). -/
def l1SetOf (l : Nat) : Nat := Config.l1Set l % (l1Lines / l1Ways)

/-- An access to these lines would have to evict a speculative line: in the L1 set of one of them, speculative lines fill every way, or would
with the other lines that a store makes speculative (R253; DESIGN CHOICE, log 12). -/
def State.l1Cut (s : State) (store : Bool) (lines : List Nat) : Bool :=
  let spec := s.cur.wroteLines.filter s.inL1
  let new := (lines.eraseDups.filter s.inL1).filter fun l => !spec.contains l
  new.any fun l =>
    let n := (spec.filter fun k => l1SetOf k == l1SetOf l).length
    let m := if store then (new.filter fun k => l1SetOf k == l1SetOf l).length else 1
    0 < n && l1Ways < n + m

/-- The committed bytes that a read takes and that fail (R96, R366). -/
def State.badByte (s : State) (pas : List Pa) : Option Pa :=
  pas.find? fun pa => s.failing pa && (s.cur.stored pa).isNone

/-- A read of bytes of this package inside the chunk of the core in focus. -/
def State.readHere (s : State) (ea : Word) (pas : List Pa) : Acc (List Byte) :=
  let c := s.cur.chunk
  let new := newLines c.reads pas
  if s.ownerBusy s.focus pas then .wait
  else if c.readCut new || s.l1Cut false (pas.map lineOf) then .cut
  else match s.badByte pas with
    | some pa => .trap s ⟨8, ea, 0, some pa⟩
    | none => .ok ((s.noteReads pas).setChunk { c with reads := c.reads ++ new }) (pas.map (s.cur.byte s.mem))

/-- The runs of bytes, each with its first address. -/
def pieces : Pa → List Byte → List (Pa × List Byte)
  | _, [] => []
  | pa, b :: r =>
    match pieces (pa + 1) r with
    | (q, l) :: t => if q % 8 = 0 then (pa, [b]) :: (q, l) :: t else (pa, b :: l) :: t
    | [] => [(pa, [b])]

/-- The posted writes of a store to another package: whole where it is naturally aligned, else pieces that do not cross
an 8-byte boundary (R95, R261). -/
def remotePosts (w : Who) (t : BitVec 6) (pa : Pa) (bs : List Byte) : List Post :=
  let ps := if pa % bs.length = 0 ∧ bs.length ≤ 8 then [(pa, bs)] else pieces pa bs
  ps.map fun p => ⟨.remoteWriteAtHome w p.1 p.2.length (leNat p.2) ⟨t, 0, []⟩, paPkg p.1, p.1, p.2.length⟩

/-- The segments of an access with their addresses in it and the bytes that each takes. -/
def segRuns : Word → List Seg → List Byte → List (Word × Seg × List Byte)
  | _, [], _ => []
  | va, g :: r, bs => (va, g, bs.take g.len) :: segRuns (va + BitVec.ofNat 64 g.len) r (bs.drop g.len)

/-- The aligned doublewords that a run of bytes holds whole, with their values (R350). -/
def wholeWords (pa : Pa) (bs : List Byte) : List (Pa × Word) :=
  let o := (8 - pa % 8) % 8
  (List.range ((bs.length - o) / 8)).map fun i =>
    (pa + o + 8 * i, BitVec.ofNat 64 (leNat ((bs.drop (o + 8 * i)).take 8)))

/-- A write of one run of bytes of this package inside the chunk. -/
def Chunk.put (c : Chunk) (pa : Pa) (bs : List Byte) : Chunk :=
  let pas := (List.range bs.length).map (pa + ·)
  { c with
    writes := (pas.zip bs).foldl (fun m w => Tab.set m w.1 w.2) c.writes
    wrote := c.wrote ++ newLines c.wrote pas
    whole := c.whole ++ wholeWords pa bs }

/-- A write of bytes inside the chunk of the core in focus, held until the commit; the bytes that leave the package are posted
there (R85, R95). covers says which bytes the instruction writes as a whole (R366). -/
def State.writeCovered (s : State) (covers : Word → Bool) (ea : Word) (segs : List Seg) (bs : List Byte) : Acc Unit :=
  let c := s.cur.chunk
  let runs := segRuns ea segs bs
  let here := runs.filter fun r => paPkg r.2.1.pa == pkgOf s.focus
  let away := runs.filter fun r => paPkg r.2.1.pa != pkgOf s.focus
  let new := newLines c.wrote (segBytes (here.map (·.2.1)))
  match here.findSome? fun r => s.firstMerge covers r.1 [(r.2.1.pa, r.2.1.len)] with
  | some pa => .trap s ⟨8, ea, 0, some pa⟩
  | none =>
    if c.writeCut new || s.l1Cut true new then .cut
    else
      let c1 := here.foldl (fun c r => c.put r.2.1.pa r.2.2) c
      .ok (s.setChunk { c1 with posts := c1.posts ++ away.flatMap fun r => remotePosts s.who s.co.tenant r.2.1.pa r.2.2 }) ()

/-- A write that is all that its instruction writes. -/
def State.writeHere (s : State) (ea : Word) (segs : List Seg) (bs : List Byte) : Acc Unit :=
  s.writeCovered (fun _ => false) ea segs bs

/-- A store of the chunk, or of the one before it that waits, is to be posted to these bytes: a later access to them is performed
after it (R261). -/
def Core.postsTo (c : Core) (segs : List Seg) : Bool :=
  (c.chunk.posts ++ (c.waiting.map (·.posts)).getD []).any fun p => p.ev.isWrite &&
    segs.any fun g => p.pa < g.pa + g.len && g.pa < p.pa + p.len

/-! ### Squash -/

/-- A line sets both of its bits in the chunk's read signature, read or not (R249, R251; DESIGN CHOICE, log 11). -/
def Chunk.sigHits (c : Chunk) (l : Nat) : Bool :=
  c.reads != [] && (signature c.reads).getLsbD (Config.sigHash l).1.toNat && (signature c.reads).getLsbD (Config.sigHash l).2.toNat

/-- A chunk has read or written one of the lines, as far as its signature and its footprint show (R251). -/
def Chunk.meets (c : Chunk) (lines : List Nat) : Bool :=
  lines.any fun l => c.wrote.contains l || c.reads.contains l || c.sigHits l

/-- The pending element groups and the pending mask of a collective released. -/
def Ext.releaseColl (e : Ext) (c : Collective) : Ext :=
  { e with cpend := e.cpend.filter (·.id != c.id), mpend := if c.form = 4 then e.mpend &&& ~~~(1#8 <<< c.mask.toNat) else e.mpend }

/-- A remote load of a squashed chunk: it is sent again, and its answer is not awaited (R250). -/
def staleLoad (w : Who) (now start : BitVec 32) : Event → Bool
  | .remoteLoadAtHome w' r _ _ _ _ => w' == w && now.getLsbD r.toNat && !start.getLsbD r.toNat
  | .pendingRegisterCompletion w' r _ _ => w' == w && now.getLsbD r.toNat && !start.getLsbD r.toNat
  | _ => false

/-- What a discarded chunk has made pending or reserved is so no more (R250). -/
def Ext.without (e : Ext) (k : Chunk) : Ext :=
  let updates := k.posts.filterMap fun p => match p.ev with
    | .vamoUpdateAtHome _ id _ _ _ _ _ _ _ _ _ => some id
    | _ => none
  let e := { e with vamos := e.vamos.filter fun v => !updates.contains v.id }
  match k.after with
  | some (.copy id _ _) => { e with vpend := e.vpend.filter (·.id != id) }
  | some (.collective c) => e.releaseColl c
  | _ => e

/-- The executing chunk of a core discarded, or both of them where the one that waits is: the coroutine stands again at the start
of the first that is (R250). -/
def State.undo (s : State) (g : CoreId) (both : Bool) : State :=
  let c := s.core g
  let c := { c with ext := c.ext.without c.chunk, vq := c.vq.filter (·.early) }
  let c := match both, c.waiting with
    | true, some k => { c with ext := c.ext.without k, waiting := none, chunk := k, vq := [] }
    | _, _ => c
  let keep := s.flight.filter fun e => !staleLoad (c.who g) c.co.pend c.chunk.start.pend e
  { s.setCore g { c with co := c.chunk.start, chunk := Chunk.fresh c.chunk.start } with flight := keep }

/-- The executing chunk of a core executed again, where its commit found a changed register (R299; DEDUCED, log 9). -/
def State.redo (s : State) (g : CoreId) : State := s.undo g false

/-- A chunk of a core squashed, with every later one of its coroutine; the fourth squash in a row asks for the sole grant
(R250 to R252). -/
def State.squash (s : State) (g : CoreId) (both : Bool) : State :=
  if (s.core g).running.isNone then s
  else
    let s := s.undo g both
    let c := s.core g
    let n := c.ext.squashes + 1
    let want := 4 ≤ n && !c.ext.sole
    let s := s.setCore g ({ c with ext := { c.ext with squashes := n, sole := c.ext.sole || want } }.countRun 2 1)
    if want then
      let y := s.pkg (pkgOf g)
      (s.setPkg (pkgOf g) { y with soleReqs := y.soleReqs ++ [g] }).post (.soleGrant (pkgOf g))
    else s

/-- The chunk of a core that waits for the weir meets the lines (R250, R251). -/
def Core.waitingMeets (c : Core) (lines : List Nat) : Bool := c.waiting.any (·.meets lines)

/-- The cores of a package but one of which an uncommitted chunk meets the lines. -/
def State.conflicting (s : State) (p : Nat) (but : Option CoreId) (lines : List Nat) : List CoreId :=
  (s.cores.filter fun x => pkgOf x.1 == p && some x.1 != but && x.2.running.isSome &&
    (x.2.chunk.meets lines || x.2.waitingMeets lines)).map (·.1)

/-- Every conflicting chunk squashed, with the later one of its coroutine (R250, R251, R258, R262). -/
def State.squashAll (s : State) (p : Nat) (but : Option CoreId) (lines : List Nat) : State :=
  (s.conflicting p but lines).foldl (fun s g => s.squash g ((s.core g).waitingMeets lines)) s

/-- The holder of the package's sole grant would be squashed: the event waits (R252; DEDUCED, log 24). -/
def State.soleBlocks (s : State) (p : Nat) (but : Option CoreId) (lines : List Nat) : Bool :=
  match (s.pkg p).sole with
  | some h => (s.conflicting p but lines).contains h
  | none => false

/-! ### Planes (R188) -/

/-- Two runs overlap. -/
def overlaps (a n b m : Nat) : Bool := a < b + m && b < a + n

/-- Bytes of a weight tile of a format (R168). -/
def tileBytes (t : BitVec 4) : Nat :=
  match t.toNat with
  | 8 => 294912
  | 12 => 65536
  | 14 => 32768
  | _ => 262144

/-- A plane loaded from a range that a run of bytes meets is stale (R188). -/
def Plane.written (x : Plane) (segs : List (Nat × Nat)) : Plane :=
  if segs.any fun g => overlaps g.1 g.2 x.w.pa (tileBytes x.w.t) then { x with stale := true } else x

/-- A write to the runs makes the planes loaded from them stale (R188). -/
def Cluster.staled (c : Cluster) (segs : List (Nat × Nat)) : Cluster :=
  { c with unit := { c.unit with plane := c.unit.plane.map (·.written segs), shadow := c.unit.shadow.map (·.written segs) } }

/-- A cluster holds a plane. -/
def Cluster.loaded (c : Cluster) : Bool := c.unit.plane.isSome || c.unit.shadow.isSome

/-- Every plane of a package checked against a write. -/
def State.stalePlanes (s : State) (p : Nat) (segs : List (Nat × Nat)) : State :=
  { s with clusters := s.clusters.map fun (x : Nat × Cluster) =>
    if x.1 / 128 = p && x.2.loaded then (x.1, x.2.staled segs) else x }

/-! ### Writes at a home (R262) -/

/-- Lines of n bytes from an address. -/
def linesFrom (pa n : Nat) : List Nat := (((List.range n).map (pa + ·)).map lineOf).eraseDups

/-- Bytes written by an event of the package order: the codewords they cover are good again, and the chunks that met their lines are
squashed (R251, R262, R366). -/
def State.putHome (s : State) (pa : Pa) (bs : List Byte) : State :=
  let s1 := ({ s with mem := memPut s.mem pa bs }).heal pa bs.length
  (s1.squashAll (paPkg pa) none (linesFrom pa bs.length)).stalePlanes (paPkg pa) [(pa, bs.length)]

/-- The promotion token of a woken entry armed with the blocks that are away (R350): in this package at once, and otherwise, or where its
codeword fails, by a request to its home. The words written are given back. -/
def State.armPromotion (s : State) (p : Nat) (x : ParkEntry) : State × List (Pa × Word) :=
  let n := BitVec.ofNat 64 (s.awayBlocks p x)
  let pa := x.ptokp
  if pa = 0 then (s, [])
  else if paPkg pa = p ∧ !s.failing pa then
    if s.homeOf pa == .nowhere then (s, [])
    else
      let w := tokArm (memWord s.mem pa) n
      (s.putHome pa (leBytes 8 w.toNat), [(pa, w)])
  else (s.post (.tokenArmAtHome (.unit p x.tenant x.cid) pa n), [])

/-- Writes of whole doublewords as the wake watches see them, in order: the first that a watch sees is taken, which wakes its entries and
arms their promotion tokens, and these writes are seen in their turn (R350). fuel: the writes, and the watches that may add one. -/
def State.seeWrites : Nat → State → List (Pa × Word) → State
  | 0, s, _ => s
  | _, s, [] => s
  | fuel + 1, s, (pa, v) :: r =>
    let p := paPkg pa
    if (s.pkg p).watches.any (·.1 == pa) then
      let w := s.wakeEntries pa v
      let a := w.2.foldl (fun (a : State × List (Pa × Word)) x =>
        let b := a.1.armPromotion p x
        (b.1, a.2 ++ b.2)) (w.1, [])
      (a.1.post (.wakeWrite pa v)).seeWrites fuel (a.2 ++ r)
    else s.seeWrites fuel r

/-- Writes of whole doublewords seen by the watches of their package (R350). -/
def State.takeWatches (s : State) (p : Nat) (ws : List (Pa × Word)) : State :=
  if (s.pkg p).watches = [] then s else s.seeWrites (ws.length + (s.pkg p).watches.length) ws

/-- Bytes written at their home, every doubleword that they hold whole seen by the wake watches (R262, R350). -/
def State.writeHome (s : State) (pa : Pa) (bs : List Byte) : State :=
  (s.putHome pa bs).takeWatches (paPkg pa) (wholeWords pa bs)

/-- The package that a request of another package reaches lets it act on the bytes (R340). -/
def State.admits (s : State) (src : Nat) (t : BitVec 6) (pa n : Nat) : Bool :=
  paPkg pa == src || match s.localTenant (paPkg pa) src t with
    | some lt => s.inWindow (paPkg pa) lt.toNat pa n
    | none => false

/-- An event at the home of an address cannot be performed: its package has no power. Arrivals do not wait for a chunk in
sole mode: R252 names commits and registrations of other cores. -/
def State.homeBusy (s : State) (pa : Nat) : Bool := !(s.pkg (paPkg pa)).on

/-- A read at the home meets bytes that an uncommitted chunk of the scratchpad's owner has written (R254). -/
def State.readBusy (s : State) (pa n : Nat) : Bool :=
  match s.region pa with
  | .scratch c =>
    let o := paPkg pa * 1024 + c
    (s.core o).running.isSome && (linesFrom pa n).any (s.core o).wroteLines.contains
  | _ => false

end Sys2Proof.Machine
end

