-- ==== Sys2Proof/Machine/Records.lean ====
section
/-!
DEFINITION. What the device reports: snapshot triggers (R372, R373), fault-queue records (R313, R368) and MSI-X messages.
-/

namespace Sys2Proof.Machine

/-- gphase of a die (R75, R185). -/
def State.gphase (s : State) (d : Nat) : Nat := (s.elapsed + (s.die d).phase0) % 16384

/-- A trigger of the common snapshot line; ignored while ARM = 0. Those of one cycle take one latch, with the lowest source (R373). -/
def State.trigger (s : State) (p src : Nat) : State :=
  let y := s.pkg p
  if y.snap.pending.any (·.1 == s.elapsed) then
    s.setPkg p { y with snap := { y.snap with
      arm := false, pending := y.snap.pending.map fun x => if x.1 = s.elapsed then (x.1, min x.2 src) else x } }
  else if y.snap.arm then
    (s.setPkg p { y with snap := { y.snap with arm := false, pending := y.snap.pending ++ [(s.elapsed, src)] } }).post (.snapshotLatch p)
  else s

/-- A fault of an enabled class triggers a snapshot (R373). -/
def State.faultClass (s : State) (p bit : Nat) : State :=
  if field (s.pkg p).snap.fclass bit 1 = 1 then s.trigger p 2 else s

/-- The class bit of a record type: halt 1, quiescence 2, memory error 5, park 6, launch rejected 7 (R373). -/
def recordClass (ty : Nat) : Option Nat :=
  match ty with
  | 1 => some 2
  | 2 => some 1
  | 3 => some 7
  | 4 => some 6
  | 5 => some 5
  | _ => none

/-- The ring of a tenant's fault queue is configured: it lies in one of the tenant's windows, and not in the granary, which a copy alone
writes (R313, R329). -/
def State.ringOk (s : State) (p : Nat) (t : BitVec 6) : Bool :=
  let x := s.tenant p t.toNat
  x.fqbase != 0 && s.inWindow p t.toNat x.fqbase.toNat (256 * 2 ^ x.fqlog2.toNat) && openRun x.fqbase.toNat (256 * 2 ^ x.fqlog2.toNat)

/-- A record posted to a tenant's fault queue, then the vector's message, or dropped (R313, R332). The words are the record's first ones;
the rest is zero. The write is one of a home: it squashes the chunks that have met its lines (DEDUCED, log 36). -/
def State.record (s : State) (p : Nat) (t : BitVec 6) (words : List Word) : State :=
  let s := match recordClass (words.headD 0).toNat with
    | some b => s.faultClass p b
    | none => s
  let x := s.tenant p t.toNat
  let n := 2 ^ x.fqlog2.toNat
  if s.ringOk p t && (x.fqtail - x.fqhead).toNat < n then
    let bytes := (words.flatMap fun w => leBytes 8 w.toNat) ++ List.replicate (256 - 8 * words.length) 0#8
    let s := s.writeHome (x.fqbase.toNat + 256 * (x.fqtail.toNat % n)) bytes
    let s := s.setTenant p t.toNat { s.tenant p t.toNat with fqtail := x.fqtail + 1 }
    s.setPkg p { s.pkg p with msix := (s.pkg p).msix ++ [(t, BitVec.ofNat 5 x.fqvec.toNat)] }
  else s.setTenant p t.toNat { x with fqlost := BitVec.ofNat 64 ((x.fqlost.toNat + 1) % 2 ^ 32) }

/-- ADDR and UNIT of the error that a read of the byte meets: memory's codeword, else that of the cache which holds it (R365, R368). -/
def State.errorAt (s : State) (pa : Pa) : Pa × Nat :=
  if s.memoryFails pa || s.linkDown pa then (s.codeword pa, (s.region pa).unitCode)
  else match s.cacheFails pa with
    | some u => (pa / 8 * 8, u)
    | none => (s.codeword pa, (s.region pa).unitCode)

/-- A memory error record of KIND 1 or 2 for the reader's tenant (R366, R368). -/
def State.errorRecord (s : State) (p : Nat) (t : BitVec 6) (kind : Nat) (addr : Word) (cid : BitVec 32) (unit : Nat) : State :=
  (s.setPkg p ((s.pkg p).countError unit false)).record p t
    [5, BitVec.ofNat 64 kind, addr, cid.setWidth 64, BitVec.ofNat 64 unit, 0]

/-- The memory error record of a failing byte that a tenant's coroutine, engine or job has read (R366, R368; DEDUCED, log 36). -/
def State.memoryError (s : State) (p : Nat) (t : BitVec 6) (kind : Nat) (pa : Pa) (cid : BitVec 32) : State :=
  let e := s.errorAt pa
  s.errorRecord p t kind (BitVec.ofNat 64 e.1) cid e.2

/-- A memory error record of KIND 3 to 6 for every tenant, in every package, whose windows cover the page, and for Grexa's own log (R368). -/
def State.pageError (s : State) (kind : Nat) (pa : Pa) (page : Bool) : State :=
  let base := pa / 65536 * 65536
  let p := paPkg pa
  let c := s.codeword pa
  let u := (s.region pa).unitCode
  let s := s.setPkg p { s.pkg p with log := (s.pkg p).log ++ [.memory kind c u (if page then base else 0)] }
  let readers := s.pkgs.flatMap fun (y : Nat × Pkg) =>
    (y.2.tenants.filter fun t => s.inWindow y.1 t.1 base 65536).map fun t => (y.1, BitVec.ofNat 6 t.1)
  readers.foldl (fun s x => s.record x.1 x.2 [5, BitVec.ofNat 64 kind, BitVec.ofNat 64 c, 0, BitVec.ofNat 64 u,
    if page then BitVec.ofNat 64 base else 0]) s

end Sys2Proof.Machine
end

