-- ==== Sys2Proof/Machine/Weir.lean ====
section
/-!
DEFINITION. The commit point of a chunk (R247, R251, R252) and what it posts to other packages (R261 to R264), and the chunk that waits for
the weir while the next one executes (R250).
-/

namespace Sys2Proof.Machine

/-- The bit of a slice mask that a home sets: slice >> 2; a scratchpad counts for its cluster's slices (R263, DEDUCED, log 21). -/
def homeBit : Home → Nat
  | .slice _ n => n / 4
  | .core g => g % 1024 / 8 * 2 / 4
  | .nowhere => 0

/-- The touched set with one more package and bank; the wide flag where a 33rd package would need an entry (R263). -/
def Ext.touch (e : Ext) (pkg bit : Nat) : Ext :=
  if e.touched.any (·.1 == pkg) then
    { e with touched := e.touched.map fun x => if x.1 == pkg then (x.1, x.2 ||| BitVec.twoPow 64 bit) else x }
  else if e.touched.length < 32 then { e with touched := e.touched ++ [(pkg, BitVec.twoPow 64 bit)] }
  else { e with wide := true }

/-- The commit of a core's executing chunk waits: for the chunk before it (R247), for a sole-mode chunk it would squash (R252),
for its own vector instructions (R118), for a register that holds it (R306, R326, R327). -/
def State.commitHeld (s : State) (g : CoreId) : Bool :=
  let c := s.core g
  c.waiting.isSome || s.soleBlocks (pkgOf g) (some g) c.chunk.wrote || !c.vq.isEmpty || s.mmioHeldBy c.chunk.mmio

/-- The loads of kernel MMIO registers give at the commit point what they gave the chunk (R299; DEDUCED, log 9). -/
def State.mmioStands (s : State) (k : Chunk) : Bool :=
  k.mloads.all fun l => ((k.mmio.take l.1).foldl (fun s w => s.mmioWrite w.1 w.2) s).mmioRead l.2.1 == some l.2.2

/-- The registers with the completions of the chunk's own atomics written (R99). -/
def Co.completeAll (c : Co) (l : List (Reg × Word)) : Co := l.foldl (fun c x => c.wr x.1 x.2) c

/-- What is posted, the writes numbered from n on (R264). -/
def numberPosts : Nat → List Post → List Post
  | _, [] => []
  | n, p :: r => { p with ev := p.ev.numbered n } :: numberPosts (if p.ev.isWrite then n + 1 else n) r

/-- The coroutine's part of a commit: counts, grants, what it sends (R252, R263, R264). -/
def Ext.committed (e : Ext) (s : State) (own : Nat) (posts : List Post) : Ext :=
  let ws := posts.filter (·.ev.isWrite)
  let e := ws.foldl (fun e p => if p.pkg = own then e else e.touch p.pkg (homeBit (s.homeOf p.pa))) e
  { e with ended := false, squashes := 0, sole := false, chunks := e.chunks + 1
           unacked := e.unacked ++ (List.range ws.length).map (s.ids + ·) }

/-- The commit point of a chunk of a core: its writes, the squashes, its atomics' completions, what it posts, its
register stores, the records of the errors that it has met, in one step of the package order (R247, R251, R366). What the core holds afterwards is k's to say: rest gives the
registers, the chunk and the waiting chunk. Cores that could not issue try again. -/
def State.commitChunk (s : State) (g : CoreId) (k : Chunk) (rest : Core → Core) : State :=
  let c := s.core g
  let s1 : State := { s with mem := memPuts s.mem k.writes }
  let s2 := s1.healWritten (pkgOf g) (k.writes.map (·.1))
  let s3 := if k.wrote = [] then s2 else s2.squashAll (pkgOf g) (some g) k.wrote
  let s4 := s3.stalePlanes (pkgOf g) (k.writes.map fun w => (w.1, 1))
  let y := s4.pkg (pkgOf g)
  let s5 := s4.setPkg (pkgOf g) { y with sole := if y.sole == some g then none else y.sole }
  let wasSole := (s.pkg (pkgOf g)).sole == some g
  let c' := rest { c with ext := c.ext.committed s (pkgOf g) k.posts }
  let c'' := (c'.countRun 1 1).countRun 3 wasSole.toNat
  let s6 := { (s5.setCore g c'').posts ((numberPosts s.ids k.posts).map (·.ev)) with
    ids := s.ids + (k.posts.filter (fun (p : Post) => p.ev.isWrite)).length, stalled := [] }
  let s7 := k.mmio.foldl (fun s w => s.mmioWrite w.1 w.2) (s6.takeWatches (pkgOf g) k.whole)
  k.errors.foldl (fun s pa => s.memoryError (pkgOf g) c.co.tenant 1 pa c.co.cid) s7

/-- The commit of the executing chunk of a core, which the next one follows. -/
def State.commitNow (s : State) (g : CoreId) : State :=
  let k := (s.core g).chunk
  s.commitChunk g k fun c => { c with co := c.co.completeAll k.compl, chunk := Chunk.fresh (c.co.completeAll k.compl) }

/-- The commit of the chunk of a core that has waited; the executing one goes on over committed memory (R250). -/
def State.commitWaiting (s : State) (g : CoreId) (k : Chunk) : State :=
  s.commitChunk g k fun c => { c with
    co := c.co.completeAll k.compl
    chunk := { c.chunk with start := c.chunk.start.completeAll k.compl }
    waiting := none }

/-- The executing chunk of a core can commit now: nothing holds it, and the registers that it has loaded over MMIO stand. -/
def State.mayCommit (s : State) (g : CoreId) : Bool := !s.commitHeld g && s.mmioStands (s.core g).chunk

/-- The commit of a core's executing chunk, where it can commit. -/
def State.commit (s : State) (g : CoreId) : Option State := if s.mayCommit g then some (s.commitNow g) else none

/-- The executing chunk, which has ended, waits for the weir and the next one starts (R250), where no other one waits. Its vector
instructions in the queue are those of the chunk that waits. -/
def State.defer (s : State) (g : CoreId) : Option State :=
  let c := s.core g
  if c.waiting.isSome then none
  else
    some ((s.setCore g { c with
      waiting := some c.chunk, chunk := Chunk.fresh c.co, vq := c.vq.map fun e => { e with early := true } }).post (.chunkCommit g))

/-- The weir holds the chunk of a core that waits: it would squash the holder of the sole grant (R252), or a register holds it (R306, R326,
R327). -/
def State.weirHolds (s : State) (g : CoreId) (k : Chunk) : Bool := s.soleBlocks (pkgOf g) (some g) k.wrote || s.mmioHeldBy k.mmio

/-- The chunk of a core that waits cannot commit now: the weir holds it, or vector instructions of it are in the queue (R118). -/
def State.waitingHeld (s : State) (g : CoreId) (k : Chunk) : Bool := s.weirHolds g k || (s.core g).vq.any (·.early)

end Sys2Proof.Machine
end

