-- ==== Sys2Proof/Machine/Context.lean ====
section
/-!
DEFINITION. Contexts: what a live mask keeps (R196 to R198), the header and slot record (R200, R202), the context cache
and the spillway (R201), signalling and freeing slots (R194, R195, R203, R206), completions of pending registers (R199).
-/

namespace Sys2Proof.Machine

/-! ### What a context keeps -/

/-- Element groups of a vector register that an explicit context holds (R197). -/
def Co.savedGroups (c : Co) : Nat := ceilDiv (c.vl.toNat * c.width) 2048

/-- Mask bits that an explicit context holds of each mask (R197). -/
def Co.savedMaskBits (c : Co) : Nat := 64 * ceilDiv c.vl.toNat 64

/-- The effective live set: the mask and the pending scalar registers (R196). -/
def Co.liveSet (c : Co) (mask : Word) : Word := mask ||| (c.pend.setWidth 64 &&& 0xFFFFFFFE)

/-- The vector registers that a collective has yet to write, which are implicitly live (R276). -/
def Ext.collectiveLive (e : Ext) : Word := e.cpend.foldl (fun m p => m ||| BitVec.twoPow 64 (32 + p.reg)) 0

/-- Bit 32 + k of a live mask, for a register that exists: the hardware ignores a bit at or above D (R32). -/
def Co.vlive (c : Co) (live : Word) (k : Nat) : Bool := k < c.nregs && live.getLsbD (32 + k)

/-- The registers as they read after a resume from an explicit context (R197). The mark of a failed load stays on a register outside
the live set (DESIGN CHOICE, log 50). -/
def Co.keep (c : Co) (live : Word) : Co :=
  { c with
    s := Vector.ofFn fun i => if live.getLsbD i && i.val != 0 then c.s[i] else 0
    v := c.v.filter fun x => c.vlive live (x.1 / c.vbytes) && x.1 % c.vbytes < 256 * c.savedGroups
    m := if live.getLsbD 0 then c.m.map fun x => x &&& (BitVec.allOnes 65536 >>> (65536 - c.savedMaskBits))
      else Vector.replicate 8 0 }

/-- The live scalar registers in ascending order. -/
def liveScalars (live : Word) : List Nat := (List.range 32).filter fun k => k != 0 && live.getLsbD k

/-- The live vector registers in ascending order. -/
def Co.liveVectors (c : Co) (live : Word) : List Nat := (List.range 32).filter (c.vlive live)

/-- Size of an explicit context in bytes (R197). -/
def Co.explicitSize (c : Co) (live : Word) : Nat :=
  64 + 8 * (liveScalars live).length + 256 * c.savedGroups * (c.liveVectors live).length +
    if live.getLsbD 0 then c.savedMaskBits else 0

/-- Size of a full context in bytes (R198). -/
def fullSize : Nat := 262144 + 65536 + 312

/-! ### Layouts -/

/-- The header (R200). -/
def Co.header (c : Co) (full : Bool) (live : Word) : List Word :=
  [c.pc, c.lstate,
   BitVec.ofNat 64 ((if c.mode = .kernel then 2 ^ 63 else 0) + c.stage.toNat * 2 ^ 59 + c.cls.toNat * 2 ^ 57 +
     c.vtype.toNat * 2 ^ 51 + c.istate.toNat * 2 ^ 34 + c.vstart.toNat * 2 ^ 17 + c.vl.toNat),
   BitVec.ofNat 64 (full.toNat * 2 ^ 18 + c.ceil.toNat * 2 ^ 16 + c.lfrz.toNat * 2 ^ 13 + c.fmode.toNat),
   live, c.seed, c.sbase, 0]

/-- The registers that a header restores; their reserved bits read as zero whatever memory holds (R7, R75, R200). -/
def Co.ofHeader (c : Co) (w : Nat → Word) : Co :=
  { c with
    pc := w 0
    lstate := w 1 &&& 0xFFFFFFFF1FFFFFFF
    mode := if field (w 2) 63 1 = 1 then .kernel else .user
    stage := BitVec.ofNat 4 (field (w 2) 59 4)
    cls := BitVec.ofNat 2 (field (w 2) 57 2)
    vtype := BitVec.ofNat 6 (field (w 2) 51 6)
    istate := BitVec.ofNat 17 (field (w 2) 34 17) &&& 0x17F7F
    vstart := BitVec.ofNat 17 (field (w 2) 17 17)
    vl := BitVec.ofNat 17 (field (w 2) 0 17)
    ceil := BitVec.ofNat 2 (field (w 3) 16 2)
    lfrz := field (w 3) 13 1 == 1
    fmode := BitVec.ofNat 13 (field (w 3) 0 13) &&& 0x1F07
    seed := w 5
    sbase := w 6
    lbad := !lstateOk (w 1) }

/-- A group register in memory, 16 bytes (R268). -/
def Grp.words (g : Grp) : List Word :=
  [g.table, BitVec.ofNat 64 (g.seq.toNat * 2 ^ 48 + g.valid.toNat * 2 ^ 32 + g.rank.toNat * 2 ^ 16 + g.size.toNat)]

/-- A group register from its 16 bytes. -/
def Grp.ofWords (old : Grp) (a b : Word) : Grp :=
  { old with table := a, seq := BitVec.ofNat 16 (field b 48 16), valid := field b 32 1 == 1,
             rank := BitVec.ofNat 12 (field b 16 12), size := BitVec.ofNat 13 (field b 0 13) }

/-- The ext of a slot that leaves the core: a touched set is replaced by the wide flag (R202). -/
def Ext.saved (e : Ext) : Ext := { e with touched := [], wide := e.wide || e.touched != [] }

/-- The batch word: whether the open batch holds an uncompleted copy, and the sealed batches outstanding (R202, R246; DEDUCED, log 31). -/
def Ext.batchWord (e : Ext) : Word :=
  BitVec.ofNat 64 ((if (e.openB.map (·.left)).getD 0 = 0 then 0 else 32) + min e.sealedB.length 16)

/-- The slot record from offset 0x140 (R202). -/
def Co.record (c : Co) (e : Ext) (halted evicted signalled : Bool) : List Word :=
  [c.tvec, c.epc, c.ecause.setWidth 64, c.etval,
   BitVec.ofNat 64 (c.estatPm.toNat * 2 ^ 63 + c.info.toNat), c.quantum.setWidth 64,
   BitVec.ofNat 64 (c.tenant.toNat * 2 ^ 48 + c.asid.toNat * 2 ^ 32 + c.cid.toNat),
   BitVec.ofNat 64 (halted.toNat * 2 ^ 63 + evicted.toNat * 2 ^ 62 + signalled.toNat * 2 ^ 61 +
     (e.wide || e.touched != []).toNat * 2 ^ 60 + c.grant.toNat * 2 ^ 59 + (c.pend &&& 0xFFFFFFFE).toNat)] ++
    (c.g.toList.flatMap Grp.words) ++ [c.done, e.batchWord]

/-- The registers that a slot record restores; the reserved bits of cid read as zero (R7, R11). -/
def Co.ofRecord (c : Co) (w : Nat → Word) : Co :=
  { c with
    tvec := w 0
    epc := w 1
    ecause := BitVec.ofNat 6 (field (w 2) 0 6)
    etval := w 3
    estatPm := field (w 4) 63 1 == 1
    info := BitVec.ofNat 58 (field (w 4) 0 58)
    quantum := BitVec.ofNat 32 (field (w 5) 0 32)
    cid := BitVec.ofNat 32 (field (w 6) 0 32) &&& 0xFFFFFFFC
    asid := BitVec.ofNat 14 (field (w 6) 32 14)
    tenant := BitVec.ofNat 6 (field (w 6) 48 6)
    grant := field (w 7) 59 1 == 1
    pend := BitVec.ofNat 32 (field (w 7) 1 31 * 2)
    g := Vector.ofFn fun i => Grp.ofWords c.g[i] (w (8 + 2 * i.val)) (w (9 + 2 * i.val))
    done := w 24 }

/-- The packed body of an explicit context: live scalars, the groups of live vectors, the masks (R202). -/
def Co.body (c : Co) (live : Word) : List Byte :=
  ((liveScalars live).flatMap fun k => leBytes 8 (c.rd (BitVec.ofNat 5 k)).toNat) ++
  ((c.liveVectors live).flatMap fun k => c.vread k 0 (256 * c.savedGroups)) ++
  (if live.getLsbD 0 then c.m.toList.flatMap fun x => leBytes (c.savedMaskBits / 8) x.toNat else [])

/-- The registers that a packed body restores; every other register reads zero (R197, R202). -/
def Co.ofBody (c : Co) (live : Word) (mem : List Host.Cell) (a : Pa) : Co :=
  let ss := liveScalars live
  let vs := c.liveVectors live
  let vb := 256 * c.savedGroups
  let a1 := a + 8 * ss.length
  let a2 := a1 + vb * vs.length
  let mb := c.savedMaskBits / 8
  { c with
    s := Vector.ofFn fun i => if ss.contains i.val then memWord mem (a + 8 * ss.idxOf i.val) else 0
    v := (vs.zipIdx).foldl (fun v x => memPut v (x.1 * c.vbytes) (memBytes mem (a1 + vb * x.2) vb)) []
    m := Vector.ofFn fun i =>
      if live.getLsbD 0 then BitVec.ofNat 65536 (leNat (memBytes mem (a2 + mb * i.val) mb)) else 0 }

/-- Base of a slot's save area (R202). -/
def Core.saveArea (c : Core) (k : Nat) : Pa := c.ctxbase.toNat + k * 0x51000

/-- The save areas of a core are valid for the tenant that owns its cluster (R381). -/
def State.savesValid (s : State) (g : CoreId) : Bool :=
  let b := (s.core g).ctxbase.toNat
  b != 0 && s.inWindow (pkgOf g) (s.cluster (clusterOf g)).tenant.toNat b (256 * 0x51000)

/-- Memory as the spillway leaves it, with the runs that it has written: it never writes outside valid save areas, nor in the granary
(R329, R366, R381; DEDUCED, log 65). -/
def State.saveMem (s : State) (g : CoreId) (m : List Host.Cell) (runs : List (Nat × Nat)) : State :=
  if s.savesValid g && openRun (s.core g).ctxbase.toNat (256 * 0x51000) then runs.foldl (fun s r => s.heal r.1 r.2) { s with mem := m } else s

/-- Bytes of a packed body (R202). -/
def Co.bodyBytes (c : Co) (live : Word) : Nat :=
  8 * (liveScalars live).length + 256 * c.savedGroups * (c.liveVectors live).length +
    (if live.getLsbD 0 then c.savedMaskBits else 0)

/-- The runs of a save area that a context fills, a full one or an explicit one (R202). -/
def Co.contextRuns (c : Co) (a : Pa) (full : Bool) (live : Word) : List (Nat × Nat) :=
  if full then [(a, 0x140), (a + 0x1000, 0x40000), (a + 0x41000, 0x10000)] else [(a, 0x40), (a + 0x210, c.bodyBytes live)]

/-- The words from an address, by number. -/
def wordsAt (m : List Host.Cell) (a : Pa) (n : Nat) : Word := memWord m (a + 8 * n)

/-- Words written one after another. -/
def memPutWords (m : List Host.Cell) (a : Pa) (ws : List Word) : List Host.Cell :=
  memPut m a (ws.flatMap fun w => leBytes 8 w.toNat)

/-- A context written to its save area: explicit, or full at the fixed offsets (R202). -/
def writeContext (m : List Host.Cell) (a : Pa) (c : Co) (full : Bool) (live : Word) : List Host.Cell :=
  if full then
    let m := memPutWords m a (c.header true (BitVec.allOnes 64))
    let m := memPutWords m (a + 0x40) c.s.toList
    let m := memPut m (a + 0x1000) ((List.range c.nregs).flatMap fun k => c.vread k 0 c.vbytes)
    memPut m (a + 0x41000) (c.m.toList.flatMap fun x => leBytes 0x2000 x.toNat)
  else memPut (memPutWords m a (c.header false live)) (a + 0x210) (c.body live)

/-- A context read back from its save area, over the slot's other registers (R200, R202). -/
def readContext (m : List Host.Cell) (a : Pa) (c : Co) : Co :=
  let c := c.ofHeader (wordsAt m a)
  if field (wordsAt m a 3) 18 1 = 1 then
    { c with
      s := Vector.ofFn fun i => if i.val = 0 then 0 else memWord m (a + 0x40 + 8 * i.val)
      v := memPut [] 0 (memBytes m (a + 0x1000) 262144)
      m := Vector.ofFn fun i => BitVec.ofNat 65536 (leNat (memBytes m (a + 0x41000 + 0x2000 * i.val) 0x2000)) }
  else c.ofBody (wordsAt m a 4) m (a + 0x210)

/-- The first failing codeword of runs of a package (R337, R366). -/
def State.failingIn (s : State) (p : Nat) (runs : List (Nat × Nat)) : Option Pa :=
  match (s.pkg p).failing.find? fun c => runs.any fun r => c < r.1 + r.2 && r.1 < c + (s.region c).codeword with
  | some c => some c
  | none => (runs.map (·.1)).find? s.failing

/-- A codeword that the restore of a slot's context meets (R366). -/
def State.contextError (s : State) (g : CoreId) (k : Nat) : Option Pa :=
  let x := (s.core g).slot k
  s.failingIn (pkgOf g) (x.co.contextRuns ((s.core g).saveArea k) x.full x.live)

/-- The error that the restore of a slot's context meets: one in the context cache, which has no address, or a codeword of
the save area where the context comes from there (R366). -/
def State.restoreError (s : State) (g : CoreId) (k : Nat) (fromMem : Bool) : Option (Option Pa) :=
  if ((s.core g).slot k).cacheError then some none
  else if fromMem then (s.contextError g k).map some
  else none

/-- A coroutine's vector queue is empty, and no element group is pending but from a collective (R118, R199, R276). -/
def Core.settled (c : Core) : Bool := c.vq.isEmpty && c.ext.vpend.isEmpty

/-! ### Slots: order, signals, the context cache -/

/-- A slot put at the back of its class's order (R206). -/
def State.joinOrder (s : State) (g : CoreId) (k : Nat) : State :=
  let c := s.core g
  s.setCore g { c.setSlot k { c.slot k with turn := c.turns + 1 } with turns := c.turns + 1 }

/-- Resident contexts' bytes in units of 64 (R201). -/
def Core.cacheUsed (c : Core) : Nat :=
  (c.slots.filter fun x => (x.2.st == .suspended || x.2.st == .signalled) && !x.2.inMem).foldl
    (fun n x => n + ceilDiv x.2.size 64 * 64) 0

/-- The context that the spillway spills next: the oldest suspended one, else, where allowed, the signalled one that stands
last in resume order: the lowest class, and in it the last turn (R201, R206). -/
def Core.victim (c : Core) (signalledToo : Bool) : Option Nat :=
  let sus := c.slots.filter fun x => x.2.st == .suspended && !x.2.inMem
  let sig := c.slots.filter fun x => x.2.st == .signalled && !x.2.inMem
  match sus with
  | x :: r => some (r.foldl (fun b y => if y.2.stamp < b.2.stamp then y else b) x).1
  | [] =>
    if signalledToo then
      match sig with
      | x :: r => some (r.foldl (fun b y =>
          if y.2.co.cls.toNat < b.2.co.cls.toNat ∨ (y.2.co.cls = b.2.co.cls ∧ b.2.turn < y.2.turn) then y else b) x).1
      | [] => none
    else none

/-- A resident context spilled: written to its save area, the slot spilled, or refilling where it was runnable (R201). -/
def State.spill (s : State) (g : CoreId) (k : Nat) : State :=
  let c := s.core g
  let x := c.slot k
  let runnable := x.st == .signalled
  let x' := { x with st := if runnable then .refilling else .spilled, inMem := true }
  let c' := { c.setSlot k x' with
    spilling := c.spilling ++ [k], refills := if runnable then c.refills ++ [k] else c.refills }
  ((s.setCore g (c'.count 4 1 none)).saveMem g (writeContext s.mem (c.saveArea k) x.co x.full x.live)
    (x.co.contextRuns (c.saveArea k) x.full x.live)).post (.spillComplete g)

/-- Contexts spilled until a new one of the size fits, n at most (R201). -/
def State.makeRoom (s : State) (g : CoreId) (size : Nat) (signalledToo : Bool) : Nat → State
  | 0 => s
  | n + 1 =>
    let c := s.core g
    if c.cacheUsed + size ≤ 196608 then s
    else match c.victim signalledToo with
      | some k => (s.spill g k).makeRoom g size signalledToo n
      | none => s

/-- A refill that waits for room is tried again (R201). -/
def State.kickRefill (s : State) (g : CoreId) : State :=
  if (s.core g).refills = [] then s else s.post (.contextRefillDone g)

/-- The condition that a slot waits for has come to hold (R194, R203). -/
def State.signalSlot (s : State) (g : CoreId) (k : Nat) : State :=
  let c := s.core g
  let x := c.slot k
  match x.st with
  | .suspended =>
    ((s.setCore g
      (c.setSlot k { x with st := .signalled, stamp := s.elapsed })).joinOrder g k).post (.coreResume g)
  | .spilled =>
    ((s.setCore g { c.setSlot k { x with st := .refilling } with refills := c.refills ++ [k] }).joinOrder
      g k).post (.contextRefillDone g)
  | .evicted =>
    let a := c.saveArea k + 0x178
    (s.setCore g (c.setSlot k { x with signalled := true })).saveMem g
      (memPutWord s.mem a (memWord s.mem a ||| BitVec.twoPow 64 61)) []
  | _ => s

/-- A slot becomes free: its tag advances, a handler designation that names it is cleared, its waiter entries and
collectives go, and those who wait for a slot of the tenant are told (R195, R215, R231, R323, R351). -/
def State.freeSlot (s : State) (g : CoreId) (k : Nat) : State :=
  let c := s.core g
  let x := c.slot k
  let h := match c.handler with
    | some (cid, cell) => if cid = mkCid g k then none else some (cid, cell)
    | none => none
  let c' := { c.setSlot k { Slot.reset with gen := x.gen + 1 } with
    handler := h, colls := c.colls.filter (·.who.slot != k), packets := c.packets.filter (cidSlot ·.1 != k) }
  let p := pkgOf g
  let t := (s.cluster (clusterOf g)).tenant
  let mine := fun (w : Who) => w.core == g && w.slot == k
  let s : State := { s with pkgs := s.pkgs.map fun (y : Nat × Pkg) => (y.1, { y.2 with waiters := y.2.waiters.filter fun w => !mine w.who }) }
  let s := ((s.setCore g c').takeMissed p (.core g)).kickRefill g
  s.wakeBind p t

/-- The running coroutine stops: its context saved under a live mask or in full, the slot in the state given (R197, R198,
R201, R206). The caller has committed the chunk and emptied the vector queue. -/
def State.stop (s : State) (g : CoreId) (full : Bool) (mask : Word) (st : SlotState) (w : Wait) (head : Word) : State :=
  let c := s.core g
  let k := c.running.getD 0
  let live := if full then BitVec.allOnes 64 else c.co.liveSet mask ||| c.ext.collectiveLive
  let co := if full then c.co else c.co.keep live
  let size := if full then fullSize else c.co.explicitSize live
  let direct := full || 196608 < size
  let s := if direct then s else s.makeRoom g (ceilDiv size 64 * 64) true 256
  let c := s.core g
  let runnable := st == .signalled
  let st' := if direct then (if runnable then .refilling else .spilled) else st
  let x : Slot := { (c.slot k) with
    st := st', co := co, ext := { c.ext with chunks := 0 }, full := full, live := live, size := size, inMem := direct,
    stamp := s.elapsed, wait := w, head := head, signalled := false, cacheError := false }
  let c' := { c.setSlot k x with
    running := none
    spilling := if direct then c.spilling ++ [k] else c.spilling
    refills := if direct && runnable then c.refills ++ [k] else c.refills }
  let s := s.setCore g (if direct then c'.count 4 1 none else c')
  let s := if direct then (s.saveMem g (writeContext s.mem (c.saveArea k) co full live) (co.contextRuns (c.saveArea k) full live)).post (.spillComplete g) else s
  let s := if runnable then s.joinOrder g k else s
  (s.takeMissed (pkgOf g) (.core g)).post (.coreResume g)

/-! ### Completions of pending registers (R195, R199, R222) -/

/-- A register of a saved context in memory written, and its pending bit in an evicted slot's record cleared (R199, R202). -/
def savedRegister (m : List Host.Cell) (a : Pa) (x : Slot) (r : Reg) (v : Word) : List Host.Cell :=
  let m := if x.full then memPutWord m (a + 0x40 + 8 * r.toNat) v
    else memPutWord m (a + 0x210 + 8 * (liveScalars x.live).idxOf r.toNat) v
  if x.st = .evicted ∨ x.st = .halted then
    memPutWord m (a + 0x178) (memWord m (a + 0x178) &&& ~~~BitVec.twoPow 64 r.toNat)
  else m

/-- A completion written to registers: a value, or the mark of a failed load (R97). -/
def Co.complete (c : Co) (r : Reg) (v : Word) (bad : Option Word) : Co :=
  let c := c.wr r v
  match bad with
  | some ea => { c with marks := (r.toNat, ea) :: c.marks }
  | none => c

/-- The registers to which a core's uncommitted chunks can return, changed as an arrival changes the coroutine's (R199, R250). -/
def Core.starts (c : Core) (f : Co → Co) : Core :=
  let upd := fun (k : Chunk) => { k with start := f k.start, back := k.back.map f }
  { c with chunk := upd c.chunk, waiting := c.waiting.map upd }

/-- A completion for a register of a coroutine: discarded for another tag or for a register that is not pending; written
to the registers or to the saved context; the coroutine that awaits exactly this register is signalled (R195, R199). -/
def State.complete (s : State) (w : Who) (r : Reg) (v : Word) (bad : Option Word) : State :=
  let c := s.core w.core
  let x := c.slot w.slot
  if x.gen != w.gen || r = 0 then s
  else if c.running = some w.slot then
    if !c.co.isPend r then s
    else
      let c' := c.starts fun co => if co.isPend r then co.complete r v bad else co
      { s.setCore w.core { c' with co := c.co.complete r v bad } with
        stalled := s.stalled.filter (· != w.core) }
  else if !x.co.isPend r then s
  else
    let s := s.setCore w.core (c.setSlot w.slot { x with co := x.co.complete r v bad })
    let s := if x.inMem then s.saveMem w.core (savedRegister s.mem (c.saveArea w.slot) x r v) [] else s
    match x.wait with
    | .register q => if q = r then s.signalSlot w.core w.slot else s
    | _ => s

/-- A completion word: bit 63, a status and 56 bits (R222). -/
def completionWord (status : Nat) (low : Nat) : Word := BitVec.ofNat 64 (2 ^ 63 + status % 128 * 2 ^ 56 + low % 2 ^ 56)

/-- What belongs to a coroutine wherever it is, changed by an event (R195): nothing where the tag is another. -/
def State.mapExt (s : State) (w : Who) (f : Ext → Ext) : State :=
  let c := s.core w.core
  let x := c.slot w.slot
  if x.gen != w.gen then s
  else if c.running = some w.slot then s.setCore w.core { c with ext := f c.ext }
  else s.setCore w.core (c.setSlot w.slot { x with ext := f x.ext })

/-- What belongs to the coroutine of a tag, if it is still there. -/
def State.extOf (s : State) (w : Who) : Option Ext :=
  let c := s.core w.core
  let x := c.slot w.slot
  if x.gen != w.gen then none
  else if c.running = some w.slot then some c.ext
  else some x.ext

/-- The event is the posted write of a number, or its acknowledgement (R264). -/
def Event.isPosted (n : Nat) : Event → Bool
  | .remoteWriteAtHome _ _ _ _ q => q.seq == n
  | .amoAtHome _ _ _ _ _ _ _ _ q => q.seq == n
  | .vamoUpdateAtHome _ _ _ _ _ _ _ _ _ _ q => q.seq == n
  | .postedWriteAcknowledged _ _ a => a.seq == n
  | _ => false

/-- A release may be performed: the posted writes before it have been performed and acknowledged, whatever has become of the coroutine
(R215, R264). -/
def State.released (s : State) (after : List Nat) : Bool := after.all fun n => !s.flight.any (·.isPosted n)

/-- The running coroutine as the sender of a token operation, which waits for the posted writes before it (R264, R340). -/
def State.sender (s : State) : Sender := .coroutine s.who ⟨s.co.tenant, 0, s.ext.unacked⟩

/-- A sender whose operation waits for the posted writes of these numbers. -/
def boundedSender (l : List Nat) : Sender → Sender
  | .coroutine w q => .coroutine w { q with after := l }
  | x => x

/-- A request with the posted writes that a release waits for: those under way at its commit (R264). -/
def Event.bounded (l : List Nat) : Event → Event
  | .tokenArmAtHome x pa op => .tokenArmAtHome (boundedSender l x) pa op
  | .tokenSignalAtHome x pa n => .tokenSignalAtHome (boundedSender l x) pa n
  | .tokenRaiseAtHome x pa n => .tokenRaiseAtHome (boundedSender l x) pa n
  | .futureStoreAtHome w pa q => .futureStoreAtHome w pa { q with req := { q.req with after := l } }
  | e => e

end Sys2Proof.Machine
end

