-- ==== Sys2Proof/Machine/Flags.lean ====
section
/-!
DEFINITION. Floating-point values, the one rounding, and every flag (R38 to R58, R65). A value is formed exactly, as a
dyadic number or as an oracle of floors where it is not dyadic, and rounded once.
-/

namespace Sys2Proof.Machine

/-! ### Formats (R38 to R42) -/

/-- A floating-point format: exponent and fraction bits, bias, and whether it has infinities. -/
structure Fmt where
  eb   : Nat
  fb   : Nat
  bias : Nat
  inf  : Bool
  deriving DecidableEq, Repr

/-- The format of a type code (R38); c32 is two values of f32 (R41). -/
def fmtOf (t : Nat) : Fmt :=
  match t with
  | 8 => ⟨2, 1, 1, false⟩
  | 9 => ⟨4, 3, 7, false⟩
  | 10 => ⟨8, 7, 127, true⟩
  | 11 => ⟨5, 10, 15, true⟩
  | 13 => ⟨11, 52, 1023, true⟩
  | 15 => ⟨11, 68, 1023, true⟩
  | _ => ⟨8, 23, 127, true⟩

/-- Width in bits. -/
def Fmt.width (f : Fmt) : Nat := 1 + f.eb + f.fb
/-- Exponent of the least normal number. -/
def Fmt.emin (f : Fmt) : Int := 1 - (f.bias : Int)
/-- The code of the largest finite magnitude: f8's fraction stops one short of its NaN (R40). -/
def Fmt.maxCode (f : Fmt) : Nat :=
  if f.inf then (2 ^ f.eb - 1) * 2 ^ f.fb - 1 else if f.eb = 4 then 0x7E else 2 ^ (f.eb + f.fb) - 1
/-- The code of +infinity, for formats that have one. -/
def Fmt.infCode (f : Fmt) : Nat := (2 ^ f.eb - 1) * 2 ^ f.fb
/-- The canonical NaN (R38, R39); f4 has none and takes +0 (R50). -/
def Fmt.nanCode (f : Fmt) : Nat :=
  if f.inf then (2 ^ f.eb - 1) * 2 ^ f.fb + 2 ^ (f.fb - 1) else if f.eb = 4 then 0x7F else 0
/-- The sign bit. -/
def Fmt.signBit (f : Fmt) (neg : Bool) : Nat := if neg then 2 ^ (f.eb + f.fb) else 0

/-- A value: NaN (signalling or not), infinity, or (-1)^neg x m x 2^e exactly; a zero keeps its sign. -/
inductive FV where
  | nan (sig : Bool)
  | inf (neg : Bool)
  | fin (neg : Bool) (m : Nat) (e : Int)
  deriving DecidableEq, Repr

/-- The value of a code of a format (R38 to R40). -/
def Fmt.value (f : Fmt) (x : Nat) : FV :=
  let neg := bits x (f.eb + f.fb) 1 == 1
  let e := bits x f.fb f.eb
  let m := bits x 0 f.fb
  if f.inf && e == 2 ^ f.eb - 1 then
    if m = 0 then .inf neg else .nan (bits m (f.fb - 1) 1 == 0)
  else if !f.inf && f.eb == 4 && e == 15 && m == 7 then .nan false
  else if e = 0 then .fin neg m (f.emin - f.fb)
  else .fin neg (2 ^ f.fb + m) ((e : Int) - f.bias - f.fb)

/-! ### Flags (R48, R49): NV 16, DZ 8, OF 4, UF 2, NX 1 -/

/-- Invalid operation. -/
def fNV : BitVec 5 := 16
/-- Division by zero. -/
def fDZ : BitVec 5 := 8
/-- Overflow. -/
def fOF : BitVec 5 := 4
/-- Underflow. -/
def fUF : BitVec 5 := 2
/-- Inexact. -/
def fNX : BitVec 5 := 1

/-- NV for a signalling NaN among the inputs (R39). -/
def nvIf (b : Bool) : BitVec 5 := if b then fNV else 0

/-! ### Stochastic rounding (R52 to R55) -/

/-- sow64 (R52). -/
def sow64 (ctr seed : Word) : Word :=
  let z := ctr + seed * 0x9E3779B97F4A7C15
  let z := (z ^^^ (z >>> 32)) * 0xD6E8FEB86659FD93
  let z := (z ^^^ (z >>> 29)) * 0xC2B2AE3D27D4EB4F
  z ^^^ (z >>> 32)

/-- The counter of an element and a stream (R53). -/
def sowCtr (sbase : Word) (i k : Nat) : Word := ((sbase + BitVec.ofNat 64 i) <<< 8) ||| BitVec.ofNat 64 k

/-- How to round: the mode (R46) and the number that stochastic rounding draws (R55). -/
structure Rnd where
  rm : Nat
  z  : Nat
  deriving DecidableEq, Repr

/-- The rounding of an instruction's code at an element index: 0 is fmode's (R46, R53). -/
def Co.rnd (c : Co) (rm i : Nat) : Rnd := ⟨if rm = 0 then c.rm else rm, (sow64 (sowCtr c.sbase i 255) c.seed).toNat⟩

/-- Round to nearest, ties to even. -/
def rne : Rnd := ⟨1, 0⟩

/-! ### Rounding (R46, R47) -/

/-- A positive magnitude: floor(log2 x), and for each q floor(x / 2^q) with whether anything is left below. -/
structure Mag where
  lg : Int
  fl : Int → Nat × Bool

/-- m x 2^e shifted to units of 2^q. -/
def dyFloor (m : Nat) (e q : Int) : Nat × Bool :=
  if q ≤ e then (m * 2 ^ (e - q).toNat, false)
  else (m / 2 ^ (q - e).toNat, m % 2 ^ (q - e).toNat != 0)

/-- A positive dyadic number. -/
def Mag.dyadic (m : Nat) (e : Int) : Mag := ⟨Nat.log2 m + e, dyFloor m e⟩

/-- floor((n / d) x 2^e) with whether anything is left below. -/
def ratFloor (n d : Nat) (e : Int) : Nat × Bool :=
  if 0 ≤ e then (n * 2 ^ e.toNat / d, n * 2 ^ e.toNat % d != 0)
  else (n / (d * 2 ^ (-e).toNat), n % (d * 2 ^ (-e).toNat) != 0)

/-- A positive rational n / d x 2^e. -/
def Mag.ratio (n d : Nat) (e : Int) : Mag :=
  let g : Int := (Nat.log2 n : Int) - Nat.log2 d
  let one := (ratFloor n d (-g)).1
  ⟨(if one = 0 then g - 1 else g) + e, fun q => ratFloor n d (e - q)⟩

/-- The integer square root by bits from 2^k down. -/
def isqrtBits (n : Nat) : Nat → Nat → Nat
  | 0, r => if (r + 1) * (r + 1) ≤ n then r + 1 else r
  | k + 1, r => isqrtBits n k (if (r + 2 ^ (k + 1)) * (r + 2 ^ (k + 1)) ≤ n then r + 2 ^ (k + 1) else r)

/-- floor(sqrt n). -/
def isqrt (n : Nat) : Nat := isqrtBits n (Nat.log2 n / 2 + 1) 0

/-- The square root of m x 2^e. -/
def Mag.root (m : Nat) (e : Int) : Mag :=
  ⟨((Nat.log2 m : Int) + e) / (2 : Int), fun q =>
    let x := dyFloor m e (2 * q)
    (isqrt x.1, x.2 || isqrt x.1 * isqrt x.1 != x.1)⟩

/-- The reciprocal of the square root of m x 2^e. -/
def Mag.rootRecip (m : Nat) (e : Int) : Mag :=
  let l : Int := -((Nat.log2 m : Int) + e)
  let g : Int := (l + 1) / 2
  let fl := fun q : Int =>
    let x := ratFloor 1 m (-e - 2 * q)
    (isqrt x.1, x.2 || isqrt x.1 * isqrt x.1 != x.1)
  ⟨if (fl g).1 = 0 then g - 1 else g, fl⟩

/-- Whether to add one unit to a truncated magnitude: frac is the top 64 discarded bits, rest what lies below them (R46, R55). -/
def roundUp (r : Rnd) (neg odd : Bool) (frac : Nat) (rest : Bool) : Bool :=
  match r.rm with
  | 1 => 2 ^ 63 < frac || (frac == 2 ^ 63 && (rest || odd))
  | 3 => neg && (frac != 0 || rest)
  | 4 => !neg && (frac != 0 || rest)
  | 5 => 2 ^ 64 ≤ frac + r.z
  | _ => false

/-- The result of an overflow (R47). -/
def Fmt.overflow (f : Fmt) (r : Rnd) (neg : Bool) : Nat :=
  let toInf := f.inf && match r.rm with
    | 1 => true
    | 3 => neg
    | 4 => !neg
    | 5 => true
    | _ => false
  (if toInf then f.infCode else f.maxCode) + f.signBit neg

/-- The code of r x 2^q, which the format represents. -/
def Fmt.code (f : Fmt) (neg : Bool) (r : Nat) (q : Int) : Nat :=
  let l := (Nat.log2 r : Int) + q
  f.signBit neg +
    if r = 0 then 0
    else if l < f.emin then (dyFloor r q (f.emin - f.fb)).1
    else (l + f.bias).toNat * 2 ^ f.fb + ((dyFloor r q (l - f.fb)).1 - 2 ^ f.fb)

/-- r x 2^q exceeds the largest finite magnitude. -/
def Fmt.exceeds (f : Fmt) (r : Nat) (q : Int) : Bool :=
  match f.value f.maxCode with
  | .fin _ m e => if q ≤ e then m * 2 ^ (e - q).toNat < r else m < r * 2 ^ (q - e).toNat
  | _ => false

/-- A magnitude rounded once at p significand bits, subnormals included, with its flags (R46, R47). -/
def Fmt.roundMag (f : Fmt) (p : Nat) (r : Rnd) (neg : Bool) (x : Mag) : Nat × BitVec 5 :=
  let q := max (x.lg - (p - 1 : Nat)) (f.emin - f.fb)
  let n := x.fl (q - 64)
  let ip := n.1 / 2 ^ 64
  let frac := n.1 % 2 ^ 64
  let inexact := frac != 0 || n.2
  let v := if roundUp r neg (ip % 2 == 1) frac n.2 then ip + 1 else ip
  if f.exceeds v q then (f.overflow r neg, fOF ||| fNX)
  else (f.code neg v q, if inexact then (if x.lg < f.emin then fUF ||| fNX else fNX) else 0)

/-- An exact result before its rounding. -/
inductive Ex where
  | val (v : FV)
  | mag (neg : Bool) (x : Mag)

/-- round_to (R65) at p significand bits: conversions of special values by R50. -/
def Fmt.roundAt (f : Fmt) (p : Nat) (r : Rnd) (x : Ex) (fl : BitVec 5) : Nat × BitVec 5 :=
  match x with
  | .val (.nan _) => (f.nanCode, if !f.inf && f.eb == 2 then fl ||| fNV else fl)
  | .val (.inf neg) =>
    if f.inf then (f.infCode + f.signBit neg, fl)
    else if f.eb = 4 then (f.nanCode, fl ||| fNV)
    else (f.maxCode + f.signBit neg, fl ||| fNV)
  | .val (.fin neg m e) =>
    if m = 0 then (f.signBit neg, fl)
    else
      let a := f.roundMag p r neg (Mag.dyadic m e)
      (a.1, a.2 ||| fl)
  | .mag neg x =>
    let a := f.roundMag p r neg x
    (a.1, a.2 ||| fl)

/-- round_to in the format's own precision. -/
def Fmt.round (f : Fmt) (r : Rnd) (x : Ex) (fl : BitVec 5) : Nat × BitVec 5 := f.roundAt (f.fb + 1) r x fl

/-! ### Exact operations (R47, R49) -/

/-- The value is a NaN. -/
def FV.isNan : FV → Bool
  | .nan _ => true
  | _ => false
/-- The value is a signalling NaN. -/
def FV.isSig : FV → Bool
  | .nan s => s
  | _ => false
/-- The value is a zero. -/
def FV.isZero : FV → Bool
  | .fin _ m _ => m == 0
  | _ => false
/-- The sign; false for NaN. -/
def FV.isNeg : FV → Bool
  | .nan _ => false
  | .inf n => n
  | .fin n _ _ => n
/-- The value with its sign changed. -/
def FV.neg : FV → FV
  | .nan s => .nan s
  | .inf n => .inf (!n)
  | .fin n m e => .fin (!n) m e
/-- The signed integer that the value is in units of 2^e. -/
def FV.units (e : Int) : FV → Int
  | .fin n m k => (if n then -1 else 1) * ((dyFloor m k e).1 : Int)
  | _ => 0

/-- An integer as a value. -/
def FV.ofInt (x : Int) : FV := .fin (x < 0) x.natAbs 0

/-- The exact sum; an exact zero takes its sign by R47. -/
def FV.add (rm : Nat) (a b : FV) : FV × BitVec 5 :=
  match a, b with
  | .nan s, b => (.nan false, nvIf (s || b.isSig))
  | _, .nan s => (.nan false, nvIf s)
  | .inf m, .inf n => if m = n then (.inf m, 0) else (.nan false, fNV)
  | .inf m, .fin _ _ _ => (.inf m, 0)
  | .fin _ _ _, .inf n => (.inf n, 0)
  | .fin m x e, .fin n y k =>
    let u := min e k
    let sum := FV.units u (.fin m x e) + FV.units u (.fin n y k)
    if sum = 0 then (.fin (if m = n ∧ x = 0 ∧ y = 0 then m else rm == 3) 0 0, 0)
    else (.fin (sum < 0) sum.natAbs u, 0)

/-- The exact product. -/
def FV.mul (a b : FV) : FV × BitVec 5 :=
  match a, b with
  | .nan s, b => (.nan false, nvIf (s || b.isSig))
  | _, .nan s => (.nan false, nvIf s)
  | .inf m, .inf n => (.inf (m != n), 0)
  | .inf m, .fin n y _ => if y = 0 then (.nan false, fNV) else (.inf (m != n), 0)
  | .fin m x _, .inf n => if x = 0 then (.nan false, fNV) else (.inf (m != n), 0)
  | .fin m x e, .fin n y k => (.fin (m != n) (x * y) (e + k), 0)

/-- a x b + c exactly; 0 x infinity sets NV whatever c is (R93). -/
def FV.fma (rm : Nat) (a b c : FV) : FV × BitVec 5 :=
  let p := a.mul b
  let s := p.1.add rm c
  (s.1, p.2 ||| s.2)

/-- The quotient (R91). -/
def FV.div (a b : FV) : Ex × BitVec 5 :=
  match a, b with
  | .nan s, b => (.val (.nan false), nvIf (s || b.isSig))
  | _, .nan s => (.val (.nan false), nvIf s)
  | .inf _, .inf _ => (.val (.nan false), fNV)
  | .inf m, .fin n _ _ => (.val (.inf (m != n)), 0)
  | .fin m _ _, .inf n => (.val (.fin (m != n) 0 0), 0)
  | .fin m x e, .fin n y k =>
    if y = 0 then (if x = 0 then (.val (.nan false), fNV) else (.val (.inf (m != n)), fDZ))
    else if x = 0 then (.val (.fin (m != n) 0 0), 0)
    else (.mag (m != n) (Mag.ratio x y (e - k)), 0)

/-- The square root (R91). -/
def FV.sqrt (a : FV) : Ex × BitVec 5 :=
  match a with
  | .nan s => (.val (.nan false), nvIf s)
  | .inf true => (.val (.nan false), fNV)
  | .inf false => (.val (.inf false), 0)
  | .fin n x e =>
    if x = 0 then (.val (.fin n 0 0), 0)
    else if n then (.val (.nan false), fNV)
    else (.mag false (Mag.root x e), 0)

/-- The reciprocal (R56, R57). -/
def FV.recip (a : FV) : Ex × BitVec 5 :=
  match a with
  | .nan s => (.val (.nan false), nvIf s)
  | .inf n => (.val (.fin n 0 0), 0)
  | .fin n x e => if x = 0 then (.val (.inf n), fDZ) else (.mag n (Mag.ratio 1 x (-e)), 0)

/-- The reciprocal of the square root (R56, R57). -/
def FV.rootRecip (a : FV) : Ex × BitVec 5 :=
  match a with
  | .nan s => (.val (.nan false), nvIf s)
  | .inf n => if n then (.val (.nan false), fNV) else (.val (.fin false 0 0), 0)
  | .fin n x e =>
    if x = 0 then (.val (.inf n), fDZ)
    else if n then (.val (.nan false), fNV)
    else (.mag false (Mag.rootRecip x e), 0)

/-- The precision of the approximations (R56): 15 bits, or the format's own where it has fewer. -/
def Fmt.approx (f : Fmt) : Nat := min 15 (f.fb + 1)

/-- a < b for values that are no NaN; the zeros are equal. -/
def FV.lt (a b : FV) : Bool :=
  match a, b with
  | .inf m, .inf n => m && !n
  | .inf m, .fin _ _ _ => m
  | .fin _ _ _, .inf n => !n
  | .fin m x e, .fin n y k => FV.units (min e k) (.fin m x e) < FV.units (min e k) (.fin n y k)
  | _, _ => false

/-- a = b for values that are no NaN. -/
def FV.eq (a b : FV) : Bool := !a.isNan && !b.isNan && !a.lt b && !b.lt a

/-- a orders before b for minimum and maximum: as lt, and -0 before +0 (R51). -/
def FV.before (a b : FV) : Bool := a.lt b || (a.isZero && b.isZero && a.isNeg && !b.isNeg)

/-- Minimum or maximum (R51). -/
def FV.pick (max : Bool) (a b : FV) : FV × BitVec 5 :=
  let fl := nvIf (a.isSig || b.isSig)
  match a.isNan, b.isNan with
  | true, true => (.nan false, fl)
  | true, false => (b, fl)
  | false, true => (a, fl)
  | false, false => (if max then (if a.before b then b else a) else (if b.before a then b else a), fl)

/-- A value rounded to an integer, exact or not (R50, R55). -/
def roundInt (r : Rnd) (neg : Bool) (m : Nat) (e : Int) : Int × Bool :=
  let n := dyFloor m e (-64)
  let ip : Nat := n.1 / 2 ^ 64
  let frac := n.1 % 2 ^ 64
  let v : Nat := if roundUp r neg (ip % 2 == 1) frac n.2 then ip + 1 else ip
  ((if neg then -1 else 1) * (v : Int), frac != 0 || n.2)

/-- Conversion to an integer type of w bits, saturating (R50). -/
def FV.toInt (r : Rnd) (signedly : Bool) (w : Nat) (a : FV) : Nat × BitVec 5 :=
  let lo : Int := if signedly then -(2 ^ (w - 1) : Nat) else 0
  let hi : Int := if signedly then (2 ^ (w - 1) : Nat) - 1 else (2 ^ w : Nat) - 1
  match a with
  | .nan _ => (0, fNV)
  | .inf n => (wrap w (if n then lo else hi), fNV)
  | .fin n m e =>
    let x := roundInt r n m e
    if x.1 < lo then (wrap w lo, fNV)
    else if hi < x.1 then (wrap w hi, fNV)
    else (wrap w x.1, if x.2 then fNX else 0)

/-! ### Newton steps and the exponential (R58, R121) -/

/-- A zero or infinity in the form that a format's code gives it. -/
def FV.plain : FV → FV
  | .fin n 0 _ => .fin n 0 0
  | v => v

/-- y x (2 - x x y) exactly, with the case of R58 that returns y: done is the complete result of VFRCP. -/
def recipStep (rm : Nat) (x y : FV) (done : FV) : FV × BitVec 5 :=
  if x.isNan || y.isNan then (.nan false, nvIf (x.isSig || y.isSig))
  else
    let special := match y with
      | .inf _ => true
      | v => v.isZero
    if special && done == y.plain then (y, 0)
    else
      let p := x.mul y
      let d := FV.add rm (.fin false 2 0) p.1.neg
      let q := y.mul d.1
      (q.1, p.2 ||| d.2 ||| q.2)

/-- y x (1.5 - 0.5 x x x y x y) exactly, likewise with VFRSQ. -/
def rootStep (rm : Nat) (x y : FV) (done : FV) : FV × BitVec 5 :=
  if x.isNan || y.isNan then (.nan false, nvIf (x.isSig || y.isSig))
  else
    let special := match y with
      | .inf _ => true
      | v => v.isZero
    if special && done == y.plain then (y, 0)
    else
      let p := x.mul y
      let p2 := p.1.mul y
      let h := FV.mul (.fin false 1 (-1)) p2.1
      let d := FV.add rm (.fin false 3 (-1)) h.1.neg
      let q := y.mul d.1
      (q.1, p.2 ||| p2.2 ||| h.2 ||| d.2 ||| q.2)

/-- floor(ln 2 x 2^256). -/
def ln2 : Nat := 80260960185991308862233904206310070533990667611589946606122867505419956976171

/-- The terms of the exponential series from term k on, in units of 2^-256, rounded down. -/
def expTerms (x : Nat) : Nat → Nat → Nat → Nat
  | 0, _, _ => 0
  | n + 1, k, t => t + expTerms x n (k + 1) (t * x / 2 ^ 256 / (k + 1))

/-- 2^f in units of 2^-256, rounded down, for f in units of 2^-256 below 1. -/
def exp2Frac (f : Nat) : Nat := expTerms (f * ln2 / 2 ^ 256) 80 0 (2 ^ 256)

/-- 2^a (R121): exact for an integer, else by the series to more than 200 bits (DEDUCED, log 19). -/
def FV.exp2 (a : FV) : Ex × BitVec 5 :=
  match a with
  | .nan s => (.val (.nan false), nvIf s)
  | .inf n => (.val (if n then .fin false 0 0 else .inf false), 0)
  | .fin neg m e =>
    let big := 20 < (Nat.log2 m : Int) + e
    if m = 0 then (.val (.fin false 1 0), 0)
    else if big then (.val (.fin false 1 (if neg then -1000000 else 1000000)), 0)
    else
      let u := FV.units (min e 0) (.fin neg m e)
      let one : Int := (2 ^ (-(min e 0)).toNat : Nat)
      let n := u / one
      let fr := (u % one).toNat
      if fr = 0 then (.val (.fin false 1 n), 0)
      else
        let f := (dyFloor fr (min e 0) (-256)).1
        let v := exp2Frac f
        (.mag false ⟨n, fun q => ((dyFloor v (n - 256) q).1, true)⟩, 0)

/-! ### a80 sums (R65) -/

/-- a80_add: the exact sum rounded to nearest-even, no flags. -/
def a80Add (a b : FV) : BitVec 80 := BitVec.ofNat 80 ((fmtOf 15).round rne (.val (a.add 1 b).1) 0).1

/-- A value in a80. -/
def a80Of (a : FV) : BitVec 80 := BitVec.ofNat 80 ((fmtOf 15).round rne (.val a) 0).1

/-- The value of an a80 entry. -/
def a80Val (x : BitVec 80) : FV := (fmtOf 15).value x.toNat

/-! ### Integer results -/

/-- A signed quotient by R36, in w bits: all ones by zero, the most negative number by -1 is itself. -/
def divSigned (w a b : Nat) : Nat :=
  if b % 2 ^ w = 0 then 2 ^ w - 1 else wrap w ((signed w a).tdiv (signed w b))
/-- A signed remainder by R36. -/
def remSigned (w a b : Nat) : Nat :=
  if b % 2 ^ w = 0 then a % 2 ^ w else wrap w ((signed w a).tmod (signed w b))
/-- An unsigned quotient by R36. -/
def divUnsigned (w a b : Nat) : Nat := if b % 2 ^ w = 0 then 2 ^ w - 1 else a % 2 ^ w / (b % 2 ^ w)
/-- An unsigned remainder by R36. -/
def remUnsigned (w a b : Nat) : Nat := if b % 2 ^ w = 0 then a % 2 ^ w else a % 2 ^ w % (b % 2 ^ w)

/-- An integer clamped to a type's range (R36). -/
def clamp (signedly : Bool) (w : Nat) (x : Int) : Nat :=
  let lo : Int := if signedly then -(2 ^ (w - 1) : Nat) else 0
  let hi : Int := if signedly then (2 ^ (w - 1) : Nat) - 1 else (2 ^ w : Nat) - 1
  wrap w (max lo (min hi x))

end Sys2Proof.Machine
end

