-- ==== Sys2Proof/Machine/Ops.lean ====
section
/-!
DEFINITION. The named operations that the meanings share: fetching lines and the fate of a transfer (R12 to R24), the
end of an instruction with the loop (R20, R105, R106), the end of a chunk (R85, R248), taking a trap and halting (R216,
R218), stalling on registers (R84), loads and stores of scalars (R94 to R97).
-/

namespace Sys2Proof.Machine

/-- What an instruction or event answers. -/
abbrev Out := Host.Outcome State Fault Refusal

/-! ### A chunk that has ended for an instruction that stops -/

/-- The chunk of an instruction that ends it and may then wait: it commits once, whatever the waits that follow (R199, R205). -/
def State.ownCommit (s : State) : Option State :=
  if s.ext.ended then some (s.setExt { s.ext with ended := false }) else s.commit s.focus

/-- The instruction's chunk has committed; the instruction itself is tried again. -/
def State.holdOn (s : State) : State := (s.setExt { s.ext with ended := true }).stall

/-! ### Lines and targets -/

/-- The base of the line that an address lies in. -/
def lineBase (a : Word) : Word := a - BitVec.ofNat 64 (a.toNat % 64)

/-- The line at a base that the core holds and the mode may fetch (R15, R302). -/
def State.heldLine (s : State) (g : CoreId) (mode : Mode) (base : Word) : Option Line :=
  let c := s.core g
  (c.line.toList ++ c.ahead).find? fun l =>
    l.va == base && l.asid == c.co.asid && l.bytes.isSome && (l.user || mode == .kernel)

/-- Where the bytes of the line at a base that is not held lie; a line held for a failed translation is translated again with a
fresh walk (R308). -/
def State.lineSegs (s : State) (g : CoreId) (mode : Mode) (base : Word) : Except Miss (List Seg) :=
  let c := s.core g
  let again := c.ahead.any fun l => l.va == base && l.asid == c.co.asid && l.bytes.isNone
  match s.translate { s.spaceOf g with mode := mode, fresh := again } .fetch base 64 with
  | .ok segs => .ok segs
  | .error e => .error e.1

/-- Bytes of a line whose package does not answer, or does not let the coroutine read them (R339, R340). -/
def State.lineBarred (s : State) (g : CoreId) (segs : List Seg) : Bool :=
  segs.any fun x => !(s.pkg (paPkg x.pa)).on || !s.admits (pkgOf g) (s.core g).co.tenant x.pa x.len

/-- A line's target permits no fetch, which is a page fault (R96, R298, R299). -/
def State.lineUnfit (s : State) (segs : List Seg) : Bool := segs.any fun x => !((s.region x.pa).permits .fetch false)

/-- The bytes of the line at a base: as held, else from committed memory (R15, R24). An uncorrectable error in them, and what another
package does not admit, is a data error (R340, R366; DEDUCED, log 20). -/
def State.lineBytes (s : State) (g : CoreId) (mode : Mode) (base : Word) : Except Miss (List Byte) :=
  match s.heldLine g mode base with
  | some l => .ok (l.bytes.getD [])
  | none =>
    match s.lineSegs g mode base with
    | .ok segs =>
      if s.lineUnfit segs then .error .page
      else if s.lineBarred g segs then .error .barred
      else match (segBytes segs).find? s.failing with
        | some pa => .error (.data pa)
        | none => .ok ((segBytes segs).map (memGet s.mem))
    | .error m => .error m

/-- What becomes of an address that becomes the PC other than by falling through (R21). -/
inductive Fate where
  /-- The transfer completes. -/
  | ok
  /-- Cause 3 at the transferring instruction. -/
  | misaligned
  /-- The transfer completes and the fault, cause 2, 4 or 8, is taken at the target. -/
  | atTarget (cause : Nat)
  deriving DecidableEq, Repr

/-- R21's checks of a target, in their order. -/
def State.fate (s : State) (g : CoreId) (mode : Mode) (t : Word) : Fate :=
  if t.toNat % 64 = 0 ∨ t.toNat % 2 = 1 then .misaligned
  else match s.lineBytes g mode (lineBase t) with
    | .error m => .atTarget (m.cause .fetch)
    | .ok b =>
      if !lineWf b then .atTarget 2
      else if lineCount b < t.toNat % 64 / 2 then .misaligned
      else .ok

/-- The sequential successor of the head at an address of a line (R20). -/
def lineSucc (b : List Byte) (a : Word) : Word := if a.toNat % 64 / 2 < lineCount b then a + 2 else lineBase a + 66

/-- The successor of the instruction that the core in focus executes. -/
def State.succ (s : State) : Word := s.co.next

/-! ### The loop (R105, R106) -/

/-- The loop is active: it has levels and no trap has frozen it. -/
def Co.looping (c : Co) : Bool := lDepth c.lstate != 0 && !c.lfrz

/-- The registers that loop_advance reads from level j on, n levels left: the counters until one goes on, then the pointer and that
level's stride (R105). -/
def Co.loopReads (c : Co) (j : Nat) : Nat → List Reg
  | 0 => []
  | n + 1 =>
    let cnt : Reg := BitVec.ofNat 5 (lCnt c.lstate + j)
    cnt :: if field (c.rd cnt) 0 32 + 1 < field (c.rd cnt) 32 32 then
        [BitVec.ofNat 5 (lPtr c.lstate), BitVec.ofNat 5 (lStr c.lstate + j)]
      else c.loopReads (j + 1) n

/-- What loop_advance reads now. -/
def Co.loopRegs (c : Co) : List Reg := c.loopReads 0 (lDepth c.lstate)

/-- loop_advance would go back to head 1 of the body. -/
def Co.loopsBack (c : Co) : Bool :=
  (List.range (lDepth c.lstate)).any fun j =>
    let v := c.rd (BitVec.ofNat 5 (lCnt c.lstate + j))
    field v 0 32 + 1 < field v 32 32

/-- No register that loop_advance reads is pending (R84). -/
def Co.loopFree (c : Co) : Bool := c.loopRegs.all fun r => !c.isPend r

/-- loop_advance from level j on, n levels left (R105): back to head 1 of the body, or on to the successor. -/
def Co.loopAdvance (c : Co) (succ : Word) (j : Nat) : Nat → Co
  | 0 => { c with lstate := 0, pc := succ, lpend := false }
  | n + 1 =>
    let cnt : Reg := BitVec.ofNat 5 (lCnt c.lstate + j)
    let v := c.rd cnt
    let idx := field v 0 32 + 1
    if idx < field v 32 32 then
      let c1 := c.wr cnt (setField v 0 32 idx)
      let p : Reg := BitVec.ofNat 5 (lPtr c.lstate)
      let c2 := c1.wr p (c1.rd p + c1.rd (BitVec.ofNat 5 (lStr c.lstate + j)))
      { c2 with pc := c.pc + lBoff c.lstate, lstate := moveLstate c.lstate (lBoff c.lstate) 0, lpend := false }
    else (c.wr cnt (setField v 0 32 0)).loopAdvance succ (j + 1) n

/-- The registers after an instruction that fell through: the successor, the next place in the body, or the end of a pass (R105). -/
def Co.passed (c : Co) (succ : Word) : Co :=
  if !c.looping then { c with pc := succ }
  else if lPos c.lstate + 1 < lBody c.lstate then
    { c with pc := succ, lstate := moveLstate c.lstate (succ - c.pc) (lPos c.lstate + 1) }
  else if c.loopFree then c.loopAdvance succ 0 (lDepth c.lstate)
  else { c with lpend := true }

/-- The last head of a loop's body is next. -/
def Co.atLoopEnd (c : Co) : Bool := c.looping && lPos c.lstate + 1 == lBody c.lstate

/-- loop_advance would meet a failed load's mark or an error in a register that it reads (R97, R367), or go back to what is no head
(R21). -/
def State.loopMeets (s : State) : Bool :=
  (s.co.loopRegs.any fun r => r != 0 && ((s.co.mark r).isSome || s.ext.badRegs.contains (0, r.toNat))) ||
    (s.co.loopsBack && s.fate s.focus s.co.mode (s.co.pc + lBoff s.co.lstate) == .misaligned)

/-- The registers after the instruction that the core in focus executes has fallen through; an advance of the loop that meets something is
not made (R105). -/
def State.passed (s : State) : Co :=
  if s.co.atLoopEnd && s.loopMeets then { s.co with lpend := true } else s.co.passed s.succ

/-- The registers after a taken transfer: an active loop ends (R106). -/
def Co.jumped (c : Co) (t : Word) : Co :=
  { c with pc := t, lstate := if c.looping then 0 else c.lstate }

/-- A head counted in the chunk, which ends after the 512th (R248). -/
def Chunk.retired (k : Chunk) : Chunk := { k with heads := k.heads + 1, ended := k.ended || 512 ≤ k.heads + 1 }

/-- The instruction of the core in focus is complete and falls through. -/
def State.retire (s : State) : State :=
  s.setCur { s.cur with co := s.passed, chunk := s.cur.chunk.retired }

/-- A head whose chunk has committed with it is complete. -/
def State.settle (s : State) : State :=
  let co := s.passed
  s.setCur { s.cur with co := co, chunk := Chunk.fresh co }

/-- The instruction is complete and transfers control. -/
def State.jump (s : State) (t : Word) : State :=
  s.setCur { s.cur with co := s.co.jumped t, chunk := s.cur.chunk.retired }

/-- An instruction inside its chunk is complete (R85). -/
def State.finish (s : State) : Out := .next s.retire

/-! ### The end of a chunk (R248) -/

/-- A chunk that cannot commit now: where a register that it has loaded over MMIO has changed it is executed again (R299; DEDUCED, log 9), else the core
waits for the weir. -/
def State.notYet (s s' : State) : State :=
  if s'.commitHeld s.focus then s.stall else s'.redo s.focus

/-- The chunk ends before the instruction, which then issues in the next one: it commits, or waits for the weir while the next one executes
(R250). -/
def State.cutChunk (s : State) : State :=
  match s.commit s.focus with
  | some s' => s'
  | none => (s.defer s.focus).getD (s.notYet s)

/-- A state in which an instruction that ends its chunk is complete: the chunk commits, or waits for the weir while the next one
executes (R250); where neither can be, the instruction stands where it was. -/
def State.endsDone (s s' : State) : Out :=
  match s'.commit s.focus with
  | some s'' => .next s''
  | none => .next ((s'.defer s.focus).getD (s.notYet s'))

/-- An instruction that ends its chunk and falls through. -/
def State.ends (s s' : State) : Out := s.endsDone s'.retire

/-- An instruction that ends its chunk and falls through, with what it does at the commit point: k at once where the chunk can commit and
the state after the commit does not hold that up, else the chunk waits with it, a, and the next one executes (R250). What holds it up and
what it does then are afterHeld's and runAfter's (Commit.lean). -/
def State.endsHeld (s s' : State) (a : After) (held : State → Bool) (k : State → State) : Out :=
  let t := s'.retire
  let waits := Host.Outcome.next (((t.setChunk { t.cur.chunk with after := some a }).defer s.focus).getD (s.notYet t))
  match t.commit s.focus with
  | some u => if held u then waits else .next (k u)
  | none => waits

/-- As endsHeld, with nothing that could hold it up but the commit. -/
def State.endsWith (s s' : State) (a : After) (k : State → State) : Out := s.endsHeld s' a (fun _ => false) k

/-- As ends, with what follows the commit, for which the instruction waits (R24, R107; DEDUCED, log 5). -/
def State.endsThen (s s' : State) (k : State → State) : Out :=
  match s'.retire.commit s.focus with
  | some s'' => .next (k s'')
  | none => .next (s.notYet s'.retire)

/-! ### Traps -/

/-- The record and the fault class that a trap reports (R366, R368, R373). -/
def State.reportTrap (s : State) (t : Trap) : State :=
  let p := pkgOf s.focus
  let s := match t.bad with
    | some pa => s.memoryError p s.co.tenant 1 pa s.co.cid
    | none => s
  match t.cause with
  | 7 => s.setCur (s.cur.countRun 6 1)
  | 8 => s.faultClass p 0
  | 11 => s.faultClass p 3
  | 15 => s.faultClass p 4
  | _ => s

/-- The registers that trap entry writes: epc, ecause, etval, estat, the mode; an active loop is frozen (R106, R216). -/
def Co.trapped (c : Co) (t : Trap) (epc : Word) : Co :=
  { c with
    epc := epc
    ecause := BitVec.ofNat 6 t.cause
    etval := t.val
    estatPm := c.mode == .kernel
    info := BitVec.ofNat 58 t.info
    mode := .kernel
    lfrz := c.lfrz || lDepth c.lstate != 0
    lpend := false
    cont := 0
    table := none
    pc := c.tvec }

/-- halt(): a full context with the slot record, MODE as before the trap, a halt record, the slot halted (R218). The header's PC is
the PC at the point of the trap (DESIGN CHOICE, log 51). -/
def State.halt (s : State) (co : Co) (cause : Word) : State :=
  let g := s.focus
  let c := s.cur
  let k := c.running.getD 0
  let a := c.saveArea k
  let m := writeContext s.mem a co true (BitVec.allOnes 64)
  let m := memPutWords m (a + 0x140) (co.record c.ext true false false)
  let e := { c.ext with touched := [], wide := c.ext.wide || c.ext.touched != [], chunks := 0 }
  let x : Slot := { c.slot k with
    st := .halted, co := co, ext := e, full := true, live := BitVec.allOnes 64, size := fullSize, inMem := true, wait := .nothing }
  let s := (s.setCur { c.setSlot k x with running := none }).saveMem g m ((a + 0x140, 0xD0) :: co.contextRuns a true (BitVec.allOnes 64))
  let s := s.record (pkgOf g) co.tenant [2, co.cid.setWidth 64, cause, co.epc, co.etval, co.tvec]
  (s.kickRefill g).post (.coreResume g)

/-- The trap would halt the coroutine, whose full context waits for pending element groups (R199, R218). -/
def State.haltWaits (s : State) : Bool :=
  !s.cur.settled && (s.commitNow s.focus).fate s.focus .kernel s.co.tvec != .ok

/-- trap_entry (R216): the chunk commits up to the trap, the trap registers are written, and the handler's address becomes
the PC; where it fails R21's checks the coroutine halts (R218). It waits for the vector queue and for the commit (DEDUCED, log 22). -/
def State.takeTrap (s : State) (t : Trap) (epc : Word) : State :=
  if !s.mayCommit s.focus then s.notYet s
  else if s.haltWaits then s.stall
  else
    let s2 := (s.commitNow s.focus).reportTrap t
    let co := s2.co.trapped t epc
    if s2.fate s.focus .kernel co.tvec = .ok then
      s2.setCur { s2.cur with co := co, chunk := Chunk.fresh co }
    else s2.halt { co with pc := s2.co.pc, mode := s2.co.mode } (BitVec.ofNat 64 t.cause)

/-- A trap can be entered at once: the vector queue is empty and the chunk can commit (R118, R216). -/
def State.trapReady (s : State) : Bool := s.mayCommit s.focus && !s.haltWaits

/-- A trap at the instruction's own head, with no address of an owner. -/
def State.trapHere (s : State) (cause : Nat) (val : Word) : Out := .next (s.takeTrap ⟨cause, val, 0, none⟩ s.co.pc)

/-- etval of an encoding: the head in [15:0] and the tail above it; the head alone where the tail has 64 bits (R83). -/
def encodingVal (h : BitVec 16) (t : Word) : Word :=
  if htl h = 3#2 then h.setWidth 64 else h.setWidth 64 ||| (t <<< 16)

/-- The encoding of an instruction as etval shows it. -/
def instrVal (i : Instr) : Word :=
  match encode i with
  | some (h, t) => encodingVal h t
  | none => 0

/-- The illegal-instruction trap, cause 1, of an instruction (R83). -/
def State.illegal (s : State) (i : Instr) : Out := s.trapHere 1 (instrVal i)

/-- The state with what another one, further on, has counted: in the core in focus, and the errors corrected on its reads (R76, R365); the
walks that the access has waited for are met. -/
def State.counted (s s' : State) : State :=
  let p := pkgOf s.focus
  let s1 := s.setCur { s.cur with pmc := s'.cur.pmc }
  let s2 : State := { s1 with pkgs := s'.pkgs.map fun (x : Nat × Pkg) =>
    (x.1, { s1.pkg x.1 with corrected := x.2.corrected, errors := x.2.errors }) }
  s2.takeMissed p (.core s.focus)

/-- The core in focus waits for the walker: its request joins the walk of its page or waits its turn, and is a miss of both TLBs
(R76, R305). -/
def State.awaitWalk (s : State) (asid : BitVec 14) (va : Word) : State :=
  let p := pkgOf s.focus
  let y := s.pkg p
  let a := Asker.core s.focus
  let s1 := if y.asked a asid va then s else s.setCur ((s.cur.countRun 11 1).countRun 12 1)
  (s1.setPkg p (y.ask a asid va)).stall

/-- An access of the instruction: it goes on, traps with its misses counted, or waits. -/
def State.access {α : Type} (s : State) (a : Acc α) (k : State → α → Out) : Out :=
  match a with
  | .ok s' x => k s' x
  | .trap s' t => .next ((s.counted s').takeTrap t s.co.pc)
  | .cut => .next s.cutChunk
  | .wait => .next s.stall
  | .walk va => .next (s.awaitWalk s.co.asid va)

/-! ### Registers at issue (R84, R97, R99, R367) -/

/-- The register does not hold what it held at the chunk's start (R367). -/
def Co.changed (c start : Co) (file n : Nat) : Bool :=
  match file with
  | 0 => c.rd (BitVec.ofNat 5 n) != start.rd (BitVec.ofNat 5 n)
  | 1 => (c.v.filter fun x => x.1 / c.vbytes == n) != start.v.filter fun x => x.1 / start.vbytes == n
  | _ => c.m[n % 8] != start.m[n % 8]

/-- An uncorrectable error in a register that is read squashes the chunk; where the register held the same at the chunk's
start it reads zero, and cause 8 is raised at the chunk's first head (R367). -/
def State.registerError (s : State) (file n : Nat) : State :=
  let c := s.cur
  let co := c.chunk.start
  let co := match file with
    | 0 => co.wr (BitVec.ofNat 5 n) 0
    | 1 => { co with v := co.v.filter fun x => x.1 / co.vbytes != n }
    | _ => { co with m := Vector.replicate 8 0 }
  let bad := c.ext.badRegs.filter fun x => if file = 2 then x.1 != 2 else x != (file, n)
  if c.co.changed c.chunk.start file n then
    (s.setCur { c with ext := { c.ext with badRegs := c.ext.badRegs.filter (· != (file, n)) } }).squash s.focus false
  else
  let s := s.setCur { c.countRun 2 1 with co := co, chunk := Chunk.fresh co, vq := [], ext := { c.ext with badRegs := bad } }
  let s := s.errorRecord (pkgOf s.focus) co.tenant 1 (BitVec.ofNat 64 (file * 256 + n)) co.cid 5
  s.takeTrap ⟨8, 0, 0, none⟩ co.pc

/-- The chunk's own commit is to complete the register: an atomic's result, or a load that is sent then (R99, R299). -/
def Chunk.owes (k : Chunk) (r : Reg) : Bool :=
  r != 0 && (k.compl.any (·.1 == r) || k.posts.any fun p => match p.ev with
    | .remoteLoadAtHome _ d _ _ _ _ => d == r
    | .pendingRegisterCompletion _ d _ _ => d == r
    | _ => false)

/-- What keeps an instruction whose values come from rs from issuing: the mark of a failed load (R97), or an error in a register
(R367). None where nothing does. -/
def State.readStop (s : State) (rs : List Reg) : Option State :=
  match rs.find? fun r => r != 0 && (s.co.mark r).isSome with
  | some r =>
    some (if s.trapReady then
        (s.setCo { s.co with marks := Tab.del s.co.marks r.toNat }).takeTrap ⟨8, (s.co.mark r).getD 0, 0, none⟩ s.co.pc
      else s.notYet s)
  | none =>
    match rs.find? fun r => r != 0 && s.ext.badRegs.contains (0, r.toNat) with
    | some r => some (if s.trapReady then s.registerError 0 r.toNat else s.notYet s)
    | none => none

/-- The trap at the instruction that the core in focus executes in s, for what its loop's advance meets in t, the state after it; the
instruction has then had no effect (R21, R97, R367; DEDUCED, log 22). None where the advance meets nothing. -/
def State.loopStop (s t : State) : Option State :=
  match s.readStop (t.co.loopRegs.filter fun r => s.co.mark r == t.co.mark r) with
  | some x => some x
  | none =>
    let head := t.co.pc + lBoff t.co.lstate
    if t.co.loopsBack && s.fate s.focus s.co.mode head == .misaligned then some (s.takeTrap ⟨3, head, 0, none⟩ s.co.pc) else none

/-- What the core does while the advance after an instruction cannot be made: its trap, the commit that completes a register, or a stall. -/
def State.loopWait (s t : State) : State :=
  match s.loopStop t with
  | some x => x
  | none => if t.co.loopRegs.any s.cur.chunk.owes then s.cutChunk else s.stall

/-- A head at the end of a loop's body and the advance after it are one instruction: where the advance meets something, or waits for a
register that was pending before, the head has not executed yet. One that has itself made such a register pending is complete, and the
advance follows (R84, R105; DEDUCED, log 22). -/
def State.headDone (s t : State) : State :=
  if s.co.lpend || !t.co.lpend || t.cur.running != s.cur.running then t
  else if (s.loopStop t).isSome || (t.co.loopRegs.any fun r => s.co.isPend r && t.co.isPend r) then s.loopWait t
  else t

/-- What keeps an instruction that reads rs and writes ws from issuing: a register that the chunk's own commit completes, which ends
the chunk before the instruction, reads it or only writes it (R99; DESIGN CHOICE for a write, log 48), a pending register, a failed
load's mark, an error in a register. None where nothing does. -/
def State.regStop (s : State) (rs ws : List Reg) : Option State :=
  if (rs ++ ws).any s.cur.chunk.owes then some s.cutChunk
  else if (rs ++ ws).any s.co.isPend then some s.stall
  else s.readStop rs

/-- The instruction issues with its registers, or the core does what R84 says instead. -/
def State.issue (s : State) (rs ws : List Reg) (k : State → Out) : Out :=
  match s.regStop rs ws with
  | some s' => .next s'
  | none => k s

/-- A scalar register of the core in focus. -/
def State.rd (s : State) (r : Reg) : Word := s.co.rd r
/-- A scalar register of the core in focus written. -/
def State.wr (s : State) (r : Reg) (v : Word) : State := s.setCo (s.co.wr r v)

/-- A scalar operation inside its chunk: s[d] := f of the registers (R84, R85). -/
def State.compute (s : State) (d : Reg) (rs : List Reg) (f : Co → Word) : Out :=
  s.issue rs [d] fun s => (s.wr d (f s.co)).finish

/-! ### Scalar accesses (R94 to R97, R299) -/

/-- An address in each page that an access looks up, in order, up to the first page that fails; fuel pages at most (R95). -/
def State.lookups (s : State) (sp : Space) (k : Kind) : Nat → Word → Nat → List Word
  | _, _, 0 => []
  | 0, _, _ => []
  | fuel + 1, va, n =>
    let n1 := min n (65536 - va.toNat % 65536)
    va :: match s.translatePage sp k va with
      | .error _ => []
      | .ok _ => s.lookups sp k fuel (va + BitVec.ofNat 64 n1) (n - n1)

/-- The misses of lookups in the core's TLB and in its cluster's counted (R76). -/
def Core.countMisses (c : Core) (shared : List Tlb) (asid : BitVec 14) (vas : List Word) : Core :=
  let own := vas.filter fun va => !c.tlb.any (·.hits asid va)
  let both := own.filter fun va => !shared.any (·.hits asid va)
  (c.countRun 11 own.length).countRun 12 both.length

/-- A demand access of lines meets prefetched ones: one that has arrived is used, and for one still outstanding the access is late
(R76, R309). -/
def Core.demand (c : Core) (lines : List Nat) : Core :=
  let mine := fun (l : Nat × Bool) => lines.contains l.1
  let used := (c.prefetch.filter fun l => mine l && l.2).length
  let late := (c.prefetch.filter fun l => mine l && !l.2).length
  ({ c with prefetch := c.prefetch.filter fun l => !(mine l && l.2) }.countRun 8 used).countRun 9 late

/-- A data access of n bytes meets the lines that have been prefetched (R76, R309). -/
def State.noteDemand (s : State) (k : Kind) (va : Word) (n : Nat) : State :=
  if k == .fetch || s.cur.prefetch == [] then s
  else match s.translate s.space k va n with
    | .ok segs => s.setCur (s.cur.demand ((segBytes segs).map lineOf))
    | .error _ => s

/-- The TLB misses of lookups of a core counted, apart from those that have waited for the walker and are counted already, and the errors
that its walks correct (R76, R365). -/
def State.noteLookups (s : State) (g : CoreId) (sp : Space) (vas : List Word) : State :=
  let s1 := s.noteRuns (vas.flatMap (s.walkReads sp))
  s1.setCore g ((s1.core g).countMisses (s.cluster sp.cl).tlb sp.asid (vas.filter fun a => (s.missedWalk sp a).isNone))

/-- The pages that an access looks up noted in the chunk, their TLB misses counted, and the prefetched lines that it meets (R76, R307,
R309). -/
def State.notePages (s : State) (k : Kind) (va : Word) (n : Nat) : State :=
  let d := s.noteDemand k va n
  if isAlias va then d
  else
    let sp := s.space
    let vas := s.lookups sp k (n / 65536 + 2) va n
    let c := d.cur.chunk
    let new := (vas.map fun a => (sp.asid, a.toNat / 65536)).filter fun x => !c.pages.contains x
    ((d.setChunk { c with pages := c.pages ++ new }).noteLookups s.focus sp vas).takeMissed (pkgOf s.focus) (.core s.focus)

/-- The segments of an access of the running coroutine, or its trap (R95, R96). -/
def State.target (s : State) (k : Kind) (scalar : Bool) (va : Word) (n : Nat) : Acc (List Seg) :=
  match s.walkWait s.space (n / 65536 + 2) va n with
  | some a => .walk a
  | none =>
    match s.reach s.space k scalar va n with
    | .error t => .trap (s.notePages k va n) t
    | .ok segs => .ok (s.notePages k va n) segs

/-- The bytes of a run translated for an instruction that looks at their place alone, or its trap (R176, R178). -/
def State.translated (s : State) (k : Kind) (va : Word) (n : Nat) : Acc (List Seg) :=
  match s.walkWait s.space (n / 65536 + 2) va n with
  | some a => .walk a
  | none =>
    match s.translate s.space k va n with
    | .error (m, a) => .trap (s.notePages k va n) ⟨m.cause k, a, 0, m.bad⟩
    | .ok segs => .ok (s.notePages k va n) segs

/-- A load of a kernel MMIO register of this package: its value now, the uncommitted stores of the core's chunks included, which the commit
checks (R250, R299; DEDUCED, log 9). -/
def State.mmioLoad (s : State) (pa : Pa) : Acc (List Byte) :=
  let k := s.cur.chunk
  let stores := (s.cur.waiting.map (·.mmio)).getD [] ++ k.mmio
  let v := ((stores.foldl (fun s w => s.mmioWrite w.1 w.2) s).mmioRead pa).getD 0
  .ok (s.setChunk { k with mloads := k.mloads ++ [(k.mmio.length, pa, v)] }) (leBytes 8 v.toNat)

/-- The bytes of a load from this package, its own chunk's stores included. -/
def State.loadLocal (s : State) (va : Word) (segs : List Seg) : Acc (List Byte) :=
  if s.isMmio segs then s.mmioLoad (segs.headD ⟨0, 0, false⟩).pa else s.readHere va (segBytes segs)

/-- A number of n bytes as a scalar register holds it (R94). -/
def extendBytes (signedly : Bool) (n x : Nat) : Word :=
  if signedly then ofInt (signed (8 * n) x) else BitVec.ofNat 64 x

/-- The pieces of a load that leaves the package: where each lies, with the bytes of those in this package (R95). -/
def State.loadPieces (s : State) (va : Word) : List Seg → Acc (List (Nat × Nat × List Byte))
  | [] => .ok s []
  | g :: r =>
    if paPkg g.pa == pkgOf s.focus then
      match s.readHere va (segBytes [g]) with
      | .ok s1 bs =>
        match s1.loadPieces va r with
        | .ok s2 l => .ok s2 ((g.pa, g.len, bs) :: l)
        | .trap s2 t => .trap s2 t
        | .cut => .cut
        | .wait => .wait
        | .walk x => .walk x
      | .trap s1 t => .trap s1 t
      | .cut => .cut
      | .wait => .wait
      | .walk x => .walk x
    else match s.loadPieces va r with
      | .ok s2 l => .ok s2 ((g.pa, g.len, []) :: l)
      | .trap s2 t => .trap s2 t
      | .cut => .cut
      | .wait => .wait
      | .walk x => .walk x

/-- A load of another package is sent at once. One of a kernel MMIO register is sent at its chunk's commit (R299), and so is one of bytes
that a store of the chunk is to be posted to before it (R261; DEDUCED, log 49). -/
def State.sendLoad (s : State) (segs : List Seg) (e : Event) : State :=
  if s.isMmio segs || s.cur.postsTo segs then
    let k := s.cur.chunk
    let pa := (segs.headD ⟨0, 0, false⟩).pa
    s.setChunk { k with posts := k.posts ++ [⟨e, paPkg pa, pa, 0⟩] }
  else s.post e

/-- A scalar load: s[d] := the bytes at s[a] + imm; from another package s[d] becomes pending (R94 to R97). -/
def State.scalarLoad (s : State) (d a : Reg) (imm : BitVec 27) (n : Nat) (signedly : Bool) : Out :=
  s.issue [a] [d] fun s =>
    let va := s.rd a + sext imm
    s.access (s.target .load true va n) fun s segs =>
      if remote (pkgOf s.focus) segs then
        s.access (s.loadPieces va segs) fun s ps =>
          ((s.setCo (s.co.setPend d)).sendLoad segs (.remoteLoadAtHome s.who d ps signedly va s.co.tenant)).finish
      else s.access (s.loadLocal va segs) fun s bs => (s.wr d (extendBytes signedly n (leNat bs))).finish

/-- The bytes of a store put into the chunk. A store to a kernel MMIO register of this package that could never be performed at one
commit point with those before it is in the next chunk (R306, R326; DEDUCED, log 9). -/
def State.storeBytes (s : State) (va : Word) (segs : List Seg) (bs : List Byte) : Acc Unit :=
  if s.isMmio segs && !remote (pkgOf s.focus) segs then
    let c := s.cur.chunk
    let pa := (segs.headD ⟨0, 0, false⟩).pa
    if s.mmioClash c.mmio pa then .cut
    else .ok (s.setChunk { c with mmio := c.mmio ++ [(pa, BitVec.ofNat 64 (leNat bs))] }) ()
  else s.writeHere va segs bs

/-- A scalar store: the low bytes of s[d] to s[a] + imm (R94 to R97). -/
def State.scalarStore (s : State) (d a : Reg) (imm : BitVec 27) (n : Nat) : Out :=
  s.issue [a, d] [] fun s =>
    let va := s.rd a + sext imm
    s.access (s.target .store true va n) fun s segs =>
      s.access (s.storeBytes va segs (leBytes n (s.rd d).toNat)) fun s _ => s.finish

/-- The address of a token word or a future: aligned to 8, translated, no granary and no MMIO; range locks do not apply
unless locked is asked (R101, R211, R228). -/
def State.wordTarget (s : State) (k : Kind) (locked : Bool) (va : Word) : Acc Pa :=
  let t := s.notePages k va 8
  if va.toNat % 8 ≠ 0 then .trap s ⟨k.cause, va, 0, none⟩
  else if s.mustWalk s.space va then .walk va
  else match s.translate s.space k va 8 with
    | .error (m, a) => .trap t ⟨m.cause k, if m = .page then va else a, 0, m.bad⟩
    | .ok segs =>
      let pa := (segs.headD ⟨0, 0, false⟩).pa
      match s.region pa with
      | .granary _ | .hole | .clusterMmio _ | .packageMmio => .trap t ⟨k.cause, va, 0, none⟩
      | _ =>
        match (if locked then firstLocked (s.pkg (pkgOf s.focus)).locks (k == .store) 0 (segBytes segs) else none) with
        | some (o, tok) => .trap t ⟨7, va + BitVec.ofNat 64 o, tok, none⟩
        | none => .ok t pa

end Sys2Proof.Machine
end

