-- ==== Sys2Proof/Machine/Alu.lean ====
section
/-!
DEFINITION. ALU, ALUI, LI and SEL (R86 to R89).
-/

namespace Sys2Proof.Machine

/-- The shift amount: bits [5:0] (R86). -/
def sh (b : Word) : Nat := b.toNat % 64

/-- Leading zeros of a word, 64 for zero (R86). -/
def clz64 (a : Word) : Nat := if a = 0 then 64 else 63 - Nat.log2 a.toNat

/-- Trailing zeros of a number of at most n bits, n where there is no one bit. -/
def ctzFrom (a : Nat) : Nat → Nat
  | 0 => 0
  | n + 1 => if a % 2 = 1 then 0 else 1 + ctzFrom (a / 2) n

/-- A form of ALU with two sources. -/
def State.alu (s : State) (d a b : Reg) (f : Word → Word → Word) : Out :=
  s.compute d [a, b] fun c => f (c.rd a) (c.rd b)

/-- A form with one source, ALUI's among them. -/
def State.alu1 (s : State) (d a : Reg) (f : Word → Word) : Out :=
  s.compute d [a] fun c => f (c.rd a)

/-- ADD (R86). -/
def execAdd (d a b : Reg) (s : State) : Out := s.alu d a b fun x y => x + y

/-- SUB (R86). -/
def execSub (d a b : Reg) (s : State) : Out := s.alu d a b fun x y => x - y

/-- MUL (R86). -/
def execMul (d a b : Reg) (s : State) : Out := s.alu d a b fun x y => x * y

/-- MULH (R86). -/
def execMulh (d a b : Reg) (s : State) : Out := s.alu d a b fun x y => ofInt (x.toInt * y.toInt / 2 ^ 64)

/-- MULHN (R86). -/
def execMulhn (d a b : Reg) (s : State) : Out := s.alu d a b fun x y => BitVec.ofNat 64 (x.toNat * y.toNat / 2 ^ 64)

/-- DIV (R86). -/
def execDiv (d a b : Reg) (s : State) : Out := s.alu d a b fun x y => BitVec.ofNat 64 (divSigned 64 x.toNat y.toNat)

/-- DIVN (R86). -/
def execDivn (d a b : Reg) (s : State) : Out := s.alu d a b fun x y => BitVec.ofNat 64 (divUnsigned 64 x.toNat y.toNat)

/-- REM (R86). -/
def execRem (d a b : Reg) (s : State) : Out := s.alu d a b fun x y => BitVec.ofNat 64 (remSigned 64 x.toNat y.toNat)

/-- REMN (R86). -/
def execRemn (d a b : Reg) (s : State) : Out := s.alu d a b fun x y => BitVec.ofNat 64 (remUnsigned 64 x.toNat y.toNat)

/-- AND (R86). -/
def execAnd (d a b : Reg) (s : State) : Out := s.alu d a b fun x y => x &&& y

/-- OR (R86). -/
def execOr (d a b : Reg) (s : State) : Out := s.alu d a b fun x y => x ||| y

/-- XOR (R86). -/
def execXor (d a b : Reg) (s : State) : Out := s.alu d a b fun x y => x ^^^ y

/-- ANDN (R86). -/
def execAndn (d a b : Reg) (s : State) : Out := s.alu d a b fun x y => x &&& ~~~y

/-- SHL (R86). -/
def execShl (d a b : Reg) (s : State) : Out := s.alu d a b fun x y => x <<< sh y

/-- SHR (R86). -/
def execShr (d a b : Reg) (s : State) : Out := s.alu d a b fun x y => x >>> sh y

/-- SRA (R86). -/
def execSra (d a b : Reg) (s : State) : Out := s.alu d a b fun x y => x.sshiftRight (sh y)

/-- ROL (R86). -/
def execRol (d a b : Reg) (s : State) : Out := s.alu d a b fun x y => x.rotateLeft (sh y)

/-- MIN (R86). -/
def execMin (d a b : Reg) (s : State) : Out := s.alu d a b fun x y => if x.toInt ≤ y.toInt then x else y

/-- MAX (R86). -/
def execMax (d a b : Reg) (s : State) : Out := s.alu d a b fun x y => if x.toInt ≤ y.toInt then y else x

/-- MINN (R86). -/
def execMinn (d a b : Reg) (s : State) : Out := s.alu d a b fun x y => if x.toNat ≤ y.toNat then x else y

/-- MAXN (R86). -/
def execMaxn (d a b : Reg) (s : State) : Out := s.alu d a b fun x y => if x.toNat ≤ y.toNat then y else x

/-- SLT (R86). -/
def execSlt (d a b : Reg) (s : State) : Out := s.alu d a b fun x y => flag (x.toInt < y.toInt)

/-- SLTN (R86). -/
def execSltn (d a b : Reg) (s : State) : Out := s.alu d a b fun x y => flag (x.toNat < y.toNat)

/-- SEQ (R86). -/
def execSeq (d a b : Reg) (s : State) : Out := s.alu d a b fun x y => flag (x == y)

/-- CLZ (R86). -/
def execClz (d a : Reg) (s : State) : Out := s.alu1 d a fun x => BitVec.ofNat 64 (clz64 x)

/-- CTZ (R86). -/
def execCtz (d a : Reg) (s : State) : Out := s.alu1 d a fun x => BitVec.ofNat 64 (ctzFrom x.toNat 64)

/-- POPC (R86). -/
def execPopc (d a : Reg) (s : State) : Out := s.alu1 d a fun x => BitVec.ofNat 64 (popcount x)

/-- ADDI (R87). -/
def execAddi (d a : Reg) (imm : BitVec 27) (s : State) : Out := s.alu1 d a fun x => x + sext imm

/-- ANDI (R87). -/
def execAndi (d a : Reg) (imm : BitVec 27) (s : State) : Out := s.alu1 d a fun x => x &&& sext imm

/-- ORI (R87). -/
def execOri (d a : Reg) (imm : BitVec 27) (s : State) : Out := s.alu1 d a fun x => x ||| sext imm

/-- XORI (R87). -/
def execXori (d a : Reg) (imm : BitVec 27) (s : State) : Out := s.alu1 d a fun x => x ^^^ sext imm

/-- SLTI (R87). -/
def execSlti (d a : Reg) (imm : BitVec 27) (s : State) : Out := s.alu1 d a fun x => flag (x.toInt < (sext imm).toInt)

/-- SHLI (R87). -/
def execShli (d a : Reg) (imm : BitVec 27) (s : State) : Out := s.alu1 d a fun x => x <<< (imm.toNat % 64)

/-- SHRI (R87). -/
def execShri (d a : Reg) (imm : BitVec 27) (s : State) : Out := s.alu1 d a fun x => x >>> (imm.toNat % 64)

/-- SRAI (R87). -/
def execSrai (d a : Reg) (imm : BitVec 27) (s : State) : Out := s.alu1 d a fun x => x.sshiftRight (imm.toNat % 64)

/-- LI with TL 2: the tail sign-extended (R88). -/
def execLiW (d : Reg) (imm : BitVec 32) (s : State) : Out := s.compute d [] fun _ => sext imm

/-- LI with TL 3: the tail itself (R88). -/
def execLiD (d : Reg) (imm : Word) (s : State) : Out := s.compute d [] fun _ => imm

/-- SEL: all three sources are read (R89). -/
def execSel (d a b c : Reg) (s : State) : Out :=
  s.compute d [a, b, c] fun r => if r.rd c != 0 then r.rd a else r.rd b

end Sys2Proof.Machine
end

