-- ==== Sys2Proof/Machine/Branch.lean ====
section
/-!
DEFINITION. BR, JMP and LOOP (R102 to R105, with the checks of R21).
-/

namespace Sys2Proof.Machine

/-- A transfer to t: cause 3 at the instruction, or it completes with its link; a fault of the code at t is taken when
the core fetches there (R21). -/
def State.transfer (s : State) (t : Word) (link : State → State) : Out :=
  match s.fate s.focus s.co.mode t with
  | .misaligned => s.trapHere 3 t
  | _ => .next ((link s).jump t)

/-- A target given in signed halfwords from the instruction's own head. -/
def State.relative {w : Nat} (s : State) (off : BitVec w) : Word := s.co.pc + (sext off <<< 1)

/-- A branch (R102). -/
def State.branch (s : State) (a b : Reg) (off : BitVec 22) (taken : Word → Word → Bool) : Out :=
  s.issue [a, b] [] fun s =>
    if taken (s.rd a) (s.rd b) then s.transfer (s.relative off) id else s.finish

/-- BEQ (R102). -/
def execBeq (a b : Reg) (off : BitVec 22) (s : State) : Out := s.branch a b off fun x y => x == y

/-- BNE (R102). -/
def execBne (a b : Reg) (off : BitVec 22) (s : State) : Out := s.branch a b off fun x y => x != y

/-- BLT (R102). -/
def execBlt (a b : Reg) (off : BitVec 22) (s : State) : Out := s.branch a b off fun x y => x.toInt < y.toInt

/-- BGE (R102). -/
def execBge (a b : Reg) (off : BitVec 22) (s : State) : Out := s.branch a b off fun x y => y.toInt ≤ x.toInt

/-- BLTN (R102). -/
def execBltn (a b : Reg) (off : BitVec 22) (s : State) : Out := s.branch a b off fun x y => x.toNat < y.toNat

/-- BGEN (R102). -/
def execBgen (a b : Reg) (off : BitVec 22) (s : State) : Out := s.branch a b off fun x y => y.toNat ≤ x.toNat

/-- J (R103). -/
def execJ (imm : BitVec 27) (s : State) : Out := s.transfer (s.relative imm) id

/-- JAL: the link register receives the successor (R20, R103). -/
def execJal (d : Reg) (imm : BitVec 27) (s : State) : Out :=
  s.issue [] [d] fun s => s.transfer (s.relative imm) fun u => u.wr d s.succ

/-- JR: s[a] is read before the link is written (R103). -/
def execJr (d a : Reg) (imm : BitVec 27) (s : State) : Out :=
  s.issue [a] [d] fun s => s.transfer (s.rd a + sext imm) fun u => u.wr d s.succ

/-- The successor n heads further on, through the lines that can be fetched; the address in the first line that cannot
be, where the fall-through faults (R20, R21). -/
def State.skip (s : State) : Nat → Word → Word
  | 0, a => a
  | n + 1, a =>
    match s.lineBytes s.focus s.co.mode (lineBase a) with
    | .error _ => a
    | .ok b =>
      if !lineWf b then a
      else s.skip n (lineSucc b a)

/-- The trip-count registers of a LOOP. -/
def loopCounts (x : BitVec 3) (d : Reg) : List Reg := (List.range (x.toNat + 1)).map fun j => BitVec.ofNat 5 (d.toNat + j)

/-- LOOP: the indices are cleared; the body starts, or is passed over where a level has no trips (R104, R105). -/
def execLoop (x : BitVec 3) (d p st : Reg) (len : BitVec 6) (s : State) : Out :=
  let regs := loopCounts x d
  s.issue regs regs fun s =>
    if lDepth s.co.lstate != 0 then s.illegal (.loop x d p st len)
    else
      let co := regs.foldl (fun c r => c.wr r (setField (c.rd r) 0 32 0)) s.co
      if regs.any fun r => field (s.rd r) 32 32 == 0 then .next ((s.setCo co).jump (s.skip (len.toNat + 1) s.co.pc))
      else
        let t := (s.setCo co).retire
        .next (t.setCo { t.co with lstate := mkLstate 0 st.toNat p.toNat d.toNat 0 (x.toNat + 1) len.toNat })

end Sys2Proof.Machine
end

