-- ==== Sys2Proof/Machine/Memory.lean ====
section
/-!
DEFINITION. Loads, stores, atomics and futures, and what their homes do (R94 to R101, R234, R261, R262, R264).
-/

namespace Sys2Proof.Machine

/-! ### LD and ST -/

/-- LDB (R94). -/
def execLdb (d a : Reg) (imm : BitVec 27) (s : State) : Out := s.scalarLoad d a imm 1 true

/-- LDH (R94). -/
def execLdh (d a : Reg) (imm : BitVec 27) (s : State) : Out := s.scalarLoad d a imm 2 true

/-- LDW (R94). -/
def execLdw (d a : Reg) (imm : BitVec 27) (s : State) : Out := s.scalarLoad d a imm 4 true

/-- LDD (R94). -/
def execLdd (d a : Reg) (imm : BitVec 27) (s : State) : Out := s.scalarLoad d a imm 8 false

/-- LDNB (R94). -/
def execLdnb (d a : Reg) (imm : BitVec 27) (s : State) : Out := s.scalarLoad d a imm 1 false

/-- LDNH (R94). -/
def execLdnh (d a : Reg) (imm : BitVec 27) (s : State) : Out := s.scalarLoad d a imm 2 false

/-- LDNW (R94). -/
def execLdnw (d a : Reg) (imm : BitVec 27) (s : State) : Out := s.scalarLoad d a imm 4 false

/-- STB (R94). -/
def execStb (d a : Reg) (imm : BitVec 27) (s : State) : Out := s.scalarStore d a imm 1

/-- STH (R94). -/
def execSth (d a : Reg) (imm : BitVec 27) (s : State) : Out := s.scalarStore d a imm 2

/-- STW (R94). -/
def execStw (d a : Reg) (imm : BitVec 27) (s : State) : Out := s.scalarStore d a imm 4

/-- STD (R94). -/
def execStd (d a : Reg) (imm : BitVec 27) (s : State) : Out := s.scalarStore d a imm 8

/-! ### AMO -/

/-- Width of an AMO in bytes (R98). -/
def amoBytes (dbl : Bool) : Nat := if dbl then 8 else 4

/-- The new value of a location of w bits (R98). -/
def amoNew (f w m op cmp : Nat) : Nat :=
  match f with
  | 0 => (m + op) % 2 ^ w
  | 1 => Nat.land m op
  | 2 => Nat.lor m op
  | 3 => Nat.xor m op
  | 4 => if signed w m ≤ signed w op then m else op
  | 5 => if signed w m ≤ signed w op then op else m
  | 6 => min m op
  | 7 => max m op
  | 8 => op
  | _ => if m = cmp then op else m

/-- What an AMO returns of the old value (R100). -/
def amoResult (dbl : Bool) (old : Nat) : Word := if dbl then BitVec.ofNat 64 old else completionWord 0 old

/-- The completion of an AMO whose home met an error: status 3 with zero bits, or the mark of a failed load, beside which the register
holds 0 (R100; DESIGN CHOICE for the 0, log 62). -/
def amoFailed (who : Who) (d : Reg) (dbl : Bool) (ea : Word) : Event :=
  if dbl then .pendingRegisterCompletion who d 0 (some ea) else .pendingRegisterCompletion who d (completionWord 3 0) none

/-- The low bytes of an operand as a number. -/
def amoArg (dbl : Bool) (x : Word) : Nat := x.toNat % 2 ^ (8 * amoBytes dbl)

/-- An AMO of cluster or package scope in its own package: performed in the chunk, whose commit makes it take effect;
s[d] is pending until then, where its home meets an error as well (R99, R100, R257). -/
def State.amoHere (s : State) (f : Nat) (dbl : Bool) (d : Reg) (op cmp : Nat) (va : Word) (segs : List Seg) : Out :=
  let c := s.cur.chunk
  let pas := segBytes segs
  let new := newLines c.reads pas
  if s.ownerBusy s.focus pas then .next s.stall
  else if c.readCut new || s.l1Cut false (pas.map lineOf) then .next s.cutChunk
  else match s.badByte pas with
    | some pa =>
      let ps := c.posts ++ [⟨amoFailed s.who d dbl va, pkgOf s.focus, pa, 0⟩]
      ((s.setCo (s.co.setPend d)).setChunk { c with reads := c.reads ++ new, posts := ps, errors := c.errors ++ [pa] }).finish
    | none =>
      let old := leNat (pas.map (s.cur.byte s.mem))
      let bs := leBytes (amoBytes dbl) (amoNew f (8 * amoBytes dbl) old op cmp)
      s.access (((s.noteReads pas).setChunk { c with reads := c.reads ++ new }).writeHere va segs bs) fun s _ =>
        let k := s.cur.chunk
        ((s.setCo (s.co.setPend d)).setChunk { k with compl := k.compl ++ [(d, amoResult dbl old)] }).finish

/-- An AMO: at s[a], with the operand s[b] and for ACAS the compare value s[c] (R98, R99; DEDUCED, log 10). -/
def State.amo (s : State) (f : BitVec 6) (dbl : Bool) (d a b : Reg) (c : Option Reg) (scope : BitVec 3) : Out :=
  s.issue ([a, b] ++ c.toList) [d] fun s =>
    let va := s.rd a
    let n := amoBytes dbl
    let cmp := match c with
      | some r => s.rd r
      | none => 0
    if va.toNat % n ≠ 0 then s.trapHere 6 va
    else s.access (s.target .store false va n) fun t segs =>
      if scope.toNat ≤ 2 && !remote (pkgOf s.focus) segs then
        t.amoHere f.toNat dbl d (amoArg dbl (s.rd b)) (amoArg dbl cmp) va segs
      else
        let pa := (segs.headD ⟨0, 0, false⟩).pa
        let k := t.cur.chunk
        let ev := Event.amoAtHome s.who d pa f dbl (s.rd b) cmp va ⟨s.co.tenant, 0, []⟩
        s.ends ((t.setCo (t.co.setPend d)).setChunk { k with posts := k.posts ++ [⟨ev, paPkg pa, pa, n⟩] })

/-- AADD (R98). -/
def execAadd (dbl : Bool) (d a b : Reg) (scope : BitVec 3) (s : State) : Out := s.amo 0 dbl d a b none scope

/-- AAND (R98). -/
def execAand (dbl : Bool) (d a b : Reg) (scope : BitVec 3) (s : State) : Out := s.amo 1 dbl d a b none scope

/-- AOR (R98). -/
def execAor (dbl : Bool) (d a b : Reg) (scope : BitVec 3) (s : State) : Out := s.amo 2 dbl d a b none scope

/-- AXOR (R98). -/
def execAxor (dbl : Bool) (d a b : Reg) (scope : BitVec 3) (s : State) : Out := s.amo 3 dbl d a b none scope

/-- AMIN (R98). -/
def execAmin (dbl : Bool) (d a b : Reg) (scope : BitVec 3) (s : State) : Out := s.amo 4 dbl d a b none scope

/-- AMAX (R98). -/
def execAmax (dbl : Bool) (d a b : Reg) (scope : BitVec 3) (s : State) : Out := s.amo 5 dbl d a b none scope

/-- AMINN (R98). -/
def execAminn (dbl : Bool) (d a b : Reg) (scope : BitVec 3) (s : State) : Out := s.amo 6 dbl d a b none scope

/-- AMAXN (R98). -/
def execAmaxn (dbl : Bool) (d a b : Reg) (scope : BitVec 3) (s : State) : Out := s.amo 7 dbl d a b none scope

/-- ASWP (R98). -/
def execAswp (dbl : Bool) (d a b : Reg) (scope : BitVec 3) (s : State) : Out := s.amo 8 dbl d a b none scope

/-- ACAS (R98). -/
def execAcas (dbl : Bool) (d a b c : Reg) (scope : BitVec 3) (s : State) : Out := s.amo 9 dbl d a b (some c) scope

/-! ### Requests -/

/-- The package that a sender's operations come from. -/
def senderPkg : Sender → Nat
  | .coroutine w _ => pkgOf w.core
  | .unit p _ _ => p
  | .host p _ => p

/-- The package of whose own units an event is work: nothing of it happens where the package is off or in recovery (R374, R377). None for a
request at its home, which waits there, and for what the host, the management interface and the reset lines do. -/
def Event.unit : Event → Option Nat
  | .runAheadFetch g _ | .chunkCommit g | .vectorQueueExecute g | .quantumExpiry g | .coreResume g | .contextRefillDone g
  | .collectiveMerge g _ | .quiescenceWatchdog g | .pageWalk g _ _ | .copyLockTimeout g | .slotEvict g _ | .slotRestore g _
  | .slotRelease g _ | .ctxbaseWrite g _ | .spillComplete g | .dataPrefetch g _ _ | .coreReset g => some (pkgOf g)
  | .pendingRegisterCompletion w _ _ _ | .waiterWake w | .tokenRepoll w => some (pkgOf w.core)
  | .copyStart cl _ | .copyFaultEnd cl _ | .copyCompletion cl _ | .clipMessageRetry cl _ | .elementGroupArrival cl _ _
  | .registerCopyDelivery cl _ | .xbswapRendezvous cl _ | .jobGrant cl | .planeFillComplete cl | .jobStart cl | .rowUpdate cl
  | .jobEnd cl | .zeroWriteRow cl | .l2cfgWrite cl _ | .tenantSwitch cl _ _ | .tenantSwitchAbandon cl | .clusterReset cl => some (cl / 128)
  | .dieReset die => some (die / 4)
  | .soleGrant p | .tlbinvTenant p _ _ | .tlbinvGrexa p _ | .tlbinvComplete p | .qdoor p _ _ _ | .launchTokenFiring p _ _
  | .launchEntryRead p _ _ | .afterTokenEligible p _ _ | .instanceBind p _ | .launchQueueConfigWrite p _ _ _ _
  | .faultQueueConfigWrite p _ _ | .tenantReset p _ | .hsigv p _ _ | .parkClockTick p | .nearDwellExpiry p _ | .farDwellExpiry p _
  | .blockMoveRegistration p _ | .blockMoveCompletion p _ | .contextMoveCompletion p _ | .parkResume p _ | .parkWaitSlotPlace p _
  | .fwreq p _ _ | .grexaRefill p | .grexaInsert p | .grexaDrop p | .blog2Write p _ _ | .snaptrig p | .snapshotLatch p
  | .grexaReplyRetry p | .distributorRegistrationRetry p _ _ | .tenantConfiguration p _ _ => some p
  | .mmioRegisterWrite a _ => some (paPkg a.pa)
  | .wakeWrite pa _ | .patrolScrub pa => some (paPkg pa)
  | _ => none

/-- The package that an event under way belongs to: that of its unit, or that which has sent its request (R378). -/
def Event.owner (e : Event) : Option Nat :=
  e.unit.orElse fun _ => match e with
  | .remoteLoadAtHome w _ _ _ _ _ | .remoteWriteAtHome w _ _ _ _ | .amoAtHome w _ _ _ _ _ _ _ _ | .vamoUpdateAtHome w _ _ _ _ _ _ _ _ _ _
  | .tokenSnapshot w | .tokenRegistration w | .fenceProbeEcho w _ _ _ | .futureLoadAtHome w _ _ _ | .futureStoreAtHome w _ _
  | .mailboxArrival _ _ w _ _ | .postedWriteAcknowledged w _ _ => some (pkgOf w.core)
  | .tokenArmAtHome x _ _ | .tokenSignalAtHome x _ _ | .tokenRaiseAtHome x _ _ => some (senderPkg x)
  | .collectivePacket _ p | .collectiveRetry _ p => some (pkgOf p.sender.core)
  | .spawnRequest q => some (pkgOf q.parent.core)
  | .hostBar2Write p _ _ _ _ | .hostBar2Read p _ _ _ | .hostAtomicOp p _ _ _ _ _ _ => some p
  | .granaryRefresh die _ | .granaryRefreshEnd die _ => some (die / 4)
  | _ => none

/-- The streams that a token operation has through its sender: the host's requests through one virtual function keep their order (R335). -/
def senderPort : Sender → Option (Nat × BitVec 6)
  | .host p t => some (p, t)
  | _ => none

/-- The token word that a wait names, with the generation it carries and the program's address. -/
def Wait.token (x : Wait) : Option (Pa × BitVec 16 × Word) :=
  match x with
  | .count pa g va => some (pa, g, va)
  | .generation pa g va => some (pa, g, va)
  | .highWater pa g va => some (pa, g, va)
  | .strip pa va _ _ _ _ => some (pa, 0, va)
  | _ => none

/-- The token word that the await of a coroutine names. -/
def State.awaited (s : State) (w : Who) : Option Pa := (((s.core w.core).slot w.slot).wait.token).map (·.1)

/-- The pod physical address of an access through BAR2: its aperture is in use, its bytes lie in one window of the tenant, and
none is kernel MMIO (R334). Nothing is served by a package that is off or in recovery (R374, R377). -/
def State.aperture (s : State) (p : Nat) (t : BitVec 6) (off : BitVec 36) (n : Nat) : Option Pa :=
  let a := ((s.tenant p t.toNat).apers.toList).getD (off.toNat / 2 ^ 32) 0
  let pa := field a 32 26 * 2 ^ 32 + off.toNat % 2 ^ 32
  let mmio := fun (x : Pa) => match s.region x with
    | .clusterMmio _ | .packageMmio | .hole => true
    | _ => false
  if (s.pkg p).live && a.getLsbD 63 && s.inWindow p t.toNat pa n && !mmio pa && !mmio (pa + n - 1) then some pa
  else none

/-- What keeps events in their order: two of one stream are performed in the order in which they were sent or arrived. -/
inductive Stream where
  /-- Requests of one package to one 128-byte line (R339). -/
  | line (src line : Nat)
  /-- Messages of one coroutine to one core (R220). -/
  | mail (who : Who) (g : CoreId)
  /-- Updates of one combining atomic at one home (R145). -/
  | updates (who : Who) (id : Nat) (home : Home)
  /-- Requests of the SPAWNs of one coroutine, which its commits put in order (R247, R264). -/
  | spawns (who : Who)
  /-- Requests of the host through one virtual function (R335). -/
  | host (pkg : Nat) (t : BitVec 6)
  deriving DecidableEq, Repr

/-- The streams of a package's requests to lines. -/
def lineStreams (src : Nat) (lines : List Nat) : List Stream := lines.map (.line src)

/-- The streams of a host request through BAR2. -/
def State.hostStreams (s : State) (p : Nat) (t : BitVec 6) (off : BitVec 36) (n : Nat) : List Stream :=
  .host p t :: match s.aperture p t off n with
    | some pa => lineStreams p (linesFrom pa (Nat.max 1 n))
    | none => []

/-- The streams of an event. -/
def State.streams (s : State) (e : Event) : List Stream :=
  let line := fun (w : Who) (pa : Pa) => [Stream.line (pkgOf w.core) (lineOf pa)]
  let wait := fun (w : Who) => ((s.awaited w).map (line w)).getD []
  let token := fun (x : Sender) (pa : Pa) =>
    Stream.line (senderPkg x) (lineOf pa) :: ((senderPort x).map fun y => Stream.host y.1 y.2).toList
  match e with
  | .remoteLoadAtHome w _ segs _ _ _ =>
    lineStreams (pkgOf w.core) ((segs.filter (·.2.2.isEmpty)).flatMap fun g => linesFrom g.1 g.2.1)
  | .remoteWriteAtHome w pa n _ _ => lineStreams (pkgOf w.core) (linesFrom pa (Nat.max 1 n))
  | .amoAtHome w _ pa _ _ _ _ _ _ => line w pa
  | .vamoUpdateAtHome w id pa _ _ _ _ _ _ _ _ => .updates w id (s.homeOf pa) :: line w pa
  | .tokenArmAtHome x pa _ => token x pa
  | .tokenSignalAtHome x pa _ => token x pa
  | .tokenRaiseAtHome x pa _ => token x pa
  | .futureLoadAtHome w _ pa _ => line w pa
  | .futureStoreAtHome w pa _ => line w pa
  | .tokenSnapshot w => wait w
  | .tokenRegistration w => wait w
  | .mailboxArrival dst _ w _ _ => [.mail w (cidCore dst)]
  | .spawnRequest q => [.spawns q.parent]
  | .hostBar2Write p t off n _ => s.hostStreams p t off n
  | .hostBar2Read p t a n => if a.bar = 2 then s.hostStreams p t a.off n else [.host p t]
  | .hostAtomicOp p t off _ n _ _ => s.hostStreams p t off n
  | .qdoor p t q _ => [.host p t, .line p (lineOf (s.tenant p t.toNat).queues[q.toNat].qtok.toNat)]
  | .hsigv p t _ => [.host p t, .line p (lineOf (s.tenant p t.toNat).hsiga.toNat)]
  | .mmioRegisterWrite ⟨some t, pa⟩ _ => [.host (paPkg pa) t]
  | .launchQueueConfigWrite p t _ _ _ => [.host p t]
  | .faultQueueConfigWrite p t _ => [.host p t]
  | _ => []

/-- Two events that keep their order. -/
def State.sameStream (s : State) (e f : Event) : Bool := (s.streams e).any (s.streams f).contains

/-- A request to the home of an address. A home of this package performs it before anything else happens, unless an earlier
request of this package to its line is still under way (DESIGN CHOICE, log 4). -/
def State.send (s : State) (pa : Pa) (e : Event) : State :=
  if paPkg pa == pkgOf s.focus && !(s.flight.any fun f => s.sameStream e f) then s.soon e else s.post e

/-- A request of the running coroutine that its chunk's commit sends; a release waits for the posted writes before it (R264). -/
def State.sendRequest (s : State) (pa : Pa) (e : Event) : State := s.send pa (e.bounded s.ext.unacked)

/-! ### The fabric (R338) -/

/-- The plane that a request to an address travels on. -/
def planeOf (pa : Pa) : Nat := Nat.xor (Nat.xor (bits pa 7 3) (bits pa 10 3)) (bits pa 13 3)

/-- The ports of a package that carry its requests to an address: those of the address's plane that have not failed, else their peers. -/
def State.portsFor (s : State) (p : Nat) (pa : Pa) : List Nat :=
  let up := fun (l : List Nat) => l.filter fun x => !(s.pkg p).ports.contains x
  let own := up ((List.range 16).map (16 * planeOf pa + ·))
  if own = [] then up (List.range 128) else own

/-- The fabric carries requests of a package to an address: both packages have a port for it. -/
def State.carries (s : State) (src : Nat) (pa : Pa) : Bool :=
  paPkg pa == src || (s.portsFor src pa != [] && s.portsFor (paPkg pa) pa != [])

/-- The fabric carries requests of a package to a core. -/
def State.carriesTo (s : State) (src : Nat) (g : CoreId) : Bool := s.carries src (cellPa g 0)

/-- The fabric does not carry a request: it stays unanswered, until its time is over (R338, R339). -/
def State.cutOff (s : State) (e : Event) : Bool :=
  ((s.streams e).any fun x => match x with
    | .line src l => !s.carries src (l * 128)
    | .mail w g => !s.carriesTo (pkgOf w.core) g
    | _ => false) ||
  match e with
  | .collectivePacket dst p => !s.carriesTo (pkgOf p.sender.core) (cidCore dst)
  | .collectiveRetry dst p => !s.carriesTo (pkgOf p.sender.core) (cidCore dst)
  | .fenceProbeEcho w _ p _ => !s.carries (pkgOf w.core) (p * 2 ^ 46)
  | .spawnRequest q =>
    q.kind == 1 && (!s.carriesTo (pkgOf q.parent.core) (cidCore q.cid) || q.probes.any fun x => !s.carries (pkgOf q.parent.core) (x.1 * 2 ^ 46))
  | _ => false

/-! ### FUT -/

/-- The address of a future: eight bytes aligned, in no token-cell window; its locks are those of an AMO for LDF as well (R98, R101). -/
def State.futureTarget (s : State) (k : Kind) (va : Word) : Acc Pa :=
  if va.toNat % 8 ≠ 0 then .trap s ⟨k.cause, va, 0, none⟩
  else match s.target k false va 8 with
    | .ok s' segs =>
      let pa := (segs.headD ⟨0, 0, false⟩).pa
      match s.region pa, firstLocked (s.pkg (pkgOf s.focus)).locks true 0 (segBytes segs) with
      | .cell _, _ => .trap s' ⟨k.cause, va, 0, none⟩
      | _, some (o, tok) => .trap s' ⟨7, va + BitVec.ofNat 64 o, tok, none⟩
      | _, none => .ok s' pa
    | .trap s' t => .trap s' t
    | .cut => .cut
    | .wait => .wait
    | .walk x => .walk x

/-- LDF: s[d] pending until the home answers (R101). -/
def execLdf (d a : Reg) (imm : BitVec 27) (s : State) : Out :=
  s.issue [a] [d] fun s =>
    let va := s.rd a + sext imm
    s.access (s.futureTarget .load va) fun t pa =>
      let e := Event.futureLoadAtHome s.who d pa ⟨va, s.co.tenant⟩
      s.endsWith (t.setCo (t.co.setPend d)) (.request pa e) fun u => u.sendRequest pa e

/-- STF: a release that fills the future (R101, R264). A part of a failing codeword is cause 8 as for a store (R366). -/
def execStf (d a : Reg) (imm : BitVec 27) (s : State) : Out :=
  s.issue [a, d] [] fun s =>
    let va := s.rd a + sext imm
    s.access (s.futureTarget .store va) fun t pa =>
      if paPkg pa == pkgOf s.focus && s.mergesFailing pa 8 then .next (s.takeTrap ⟨8, va, 0, some pa⟩ s.co.pc)
      else
        let e := Event.futureStoreAtHome s.who pa ⟨s.rd d, ⟨s.co.tenant, 0, []⟩⟩
        s.endsWith t (.request pa e) fun u => u.sendRequest pa e

/-! ### At the homes -/

/-! ### Reading elements -/

/-- A result carried on inside an access. -/
def Acc.bind {α β : Type} (a : Acc α) (f : State → α → Acc β) : Acc β :=
  match a with
  | .ok s x => f s x
  | .trap s t => .trap s t
  | .cut => .cut
  | .wait => .wait
  | .walk x => .walk x

/-- An earlier request of this package to one of the lines is still under way: a later load keeps its place (R339). -/
def State.lineUnderWay (s : State) (p : Nat) (lines : List Nat) : Bool :=
  s.flight.any fun e => (s.streams e).any (lineStreams p lines).contains

/-- A load from another package whose bytes the instruction itself needs, a vector element's among them: performed at its home
when it executes (R139, R143, R261), or failed where that package does not answer (R339). The elements of one instruction are read in
ascending order, in one step where nothing makes it wait (DESIGN CHOICE, log 60); one that the chunk's own posted stores must
come before ends the chunk (DEDUCED, log 49). -/
def State.remoteElement (s : State) (va : Word) (segs : List Seg) : Acc (List Byte) :=
  let pas := segBytes segs
  let src := pkgOf s.focus
  if s.cur.postsTo segs then (if s.cur.chunk.posts = [] then .wait else .cut)
  else if segs.any fun g => !(s.pkg (paPkg g.pa)).on || !s.carries src g.pa then .trap s ⟨8, va, 0, none⟩
  else if segs.any fun g => s.readBusy g.pa g.len then .wait
  else if s.lineUnderWay src (pas.map lineOf) then .wait
  else if segs.any fun g => !s.admits src s.co.tenant g.pa g.len then .trap s ⟨8, va, 0, none⟩
  else match pas.find? s.failing with
    | some pa => .trap s ⟨8, va, 0, some pa⟩
    | none => .ok (s.noteReads pas) (pas.map (memGet s.mem))

/-- The bytes of segments, each read in this package inside the chunk or in another (R95). -/
def State.readSegs (s : State) (va : Word) : List Seg → Acc (List Byte)
  | [] => .ok s []
  | g :: r =>
    (if paPkg g.pa == pkgOf s.focus then s.readHere va (segBytes [g]) else s.remoteElement va [g]).bind fun t bs =>
      (t.readSegs va r).bind fun u rest => .ok u (bs ++ rest)

/-- Those of events in order that keep their order with one of some others, or with one of these before them, and those that do not. -/
def State.parted (s : State) (moved : List Event) : List Event → List Event × List Event
  | [] => ([], [])
  | f :: r =>
    if moved.any (s.sameStream · f) then
      let x := s.parted (moved ++ [f]) r
      (f :: x.1, x.2)
    else
      let x := s.parted moved r
      (x.1, f :: x.2)

/-- An event that cannot be performed yet goes to the back of those under way, with every later one that keeps its order with it, or with
one that has gone back (R339). -/
def State.again (s : State) (e : Event) : Out :=
  let x := s.parted [e] s.flight
  .next { s with flight := x.2 ++ e :: x.1 }

/-- PENDING_REGISTER_COMPLETION (R199, R222). -/
def execPendingRegisterCompletion (who : Who) (r : Reg) (val : Word) (bad : Option Word) (s : State) : Out :=
  .next (s.complete who r val bad)

/-- The bytes that a home answers with: a kernel MMIO register's, or memory's (R261, R299). -/
def State.bytesAtHome (s : State) (pas : List Pa) : List Byte :=
  match s.mmioRead (pas.headD 0) with
  | some v => leBytes 8 v.toNat
  | none => pas.map (memGet s.mem)

/-- REMOTE_LOAD_AT_HOME: the latest committed bytes, or the mark of a failed load (R97, R261, R262, R340; DEDUCED, log 23), whose
register holds 0 beside the mark (DESIGN CHOICE, log 62). -/
def execRemoteLoadAtHome (who : Who) (r : Reg) (segs : List (Nat × Nat × List Byte)) (signed : Bool) (ea : Word)
    (tenant : BitVec 6) (s : State) : Out :=
  let away := segs.filter (·.2.2.isEmpty)
  if away.any fun g => !(s.pkg (paPkg g.1)).on || s.readBusy g.1 g.2.1 then
    s.again (.remoteLoadAtHome who r segs signed ea tenant)
  else
    let run := fun (g : Nat × Nat × List Byte) => (List.range g.2.1).map (g.1 + ·)
    if away.any fun g => !s.admits (pkgOf who.core) tenant g.1 g.2.1 then .next (s.complete who r 0 (some ea))
    else match (away.flatMap run).find? s.failing with
      | some pa =>
        .next ((s.memoryError (pkgOf who.core) tenant 1 pa (mkCid who.core who.slot)).complete who r 0 (some ea))
      | none =>
        let bs := segs.flatMap fun g => if g.2.2.isEmpty then s.bytesAtHome (run g) else g.2.2
        .next ((s.noteReads (away.flatMap run)).complete who r (extendBytes signed bs.length (leNat bs)) none)

/-- What belongs to the coroutines of a core, changed. -/
def Core.mapExts (c : Core) (f : Ext → Ext) : Core :=
  { c with ext := f c.ext, slots := c.slots.map fun x => (x.1, { x.2 with ext := f x.2.ext }) }

/-- What belongs to every coroutine changed, that of a tenant switched away as well (R195, R328). -/
def State.mapExts (s : State) (f : Ext → Ext) : State :=
  let slot := fun (x : Nat × Slot) => (x.1, { x.2 with ext := f x.2.ext })
  let saved := fun (x : Nat × List (List (Nat × Slot) × List Msg)) => (x.1, x.2.map fun y => (y.1.map slot, y.2))
  { s with
    cores := s.cores.map fun x => (x.1, x.2.mapExts f)
    clusters := s.clusters.map fun x => if x.2.saved = [] then x else (x.1, { x.2 with saved := x.2.saved.map saved }) }

/-- The numbers that a coroutine waits for without one, whose write may have been lost (R107, R264). -/
def Ext.acked (e : Ext) (pkg : Nat) (n : Nat) (lost : Bool) : Ext :=
  if !e.unacked.contains n then e
  else { e with
    unacked := e.unacked.filter (· != n)
    lost := if !lost || e.lost.contains pkg then e.lost else e.lost ++ [pkg] }

/-- The fence of a SPAWN under way waits for the write of a number to a package (R266). -/
def Event.fences (pkg n : Nat) : Event → Bool
  | .spawnRequest q => q.after.contains n && q.probes.any (·.1 == pkg)
  | _ => false

/-- The fence of a SPAWN under way has failed (R266). -/
def Event.fenceFailed : Event → Event
  | .spawnRequest q => .spawnRequest { q with failed := true }
  | e => e

/-- A copy's write to another package is over: one that was not made is not counted (R240, R262). -/
def Copy.acked (c : Copy) (a : Ack) : Copy :=
  match c.away.find? (·.1 == a.seq) with
  | none => c
  | some x => { c with away := c.away.filter (·.1 != a.seq), bytes := if a.ok then c.bytes else c.bytes - x.2 }

/-- The copy, of any engine, that has sent the write of a number (R262). -/
def State.copyOf (s : State) (n : Nat) : Option Copy := s.clusters.findSome? fun x => x.2.copies.find? fun c => c.away.any (·.1 == n)

/-- The copies after an acknowledgement; a write that a home has not admitted is kept as lost for the issuer's next fence (R240, R340;
DEDUCED, log 26). -/
def State.copyAcked (s : State) (pkg : Nat) (a : Ack) : State :=
  match s.copyOf a.seq with
  | none => s
  | some c =>
    let s1 : State := { s with clusters := s.clusters.map fun x =>
      if x.2.copies = [] then x else (x.1, { x.2 with copies := x.2.copies.map (·.acked a) }) }
    if a.ok then s1 else s1.mapExt c.who fun e => { e with lost := if e.lost.contains pkg then e.lost else e.lost ++ [pkg] }

/-- POSTED_WRITE_ACKNOWLEDGED: its number is no longer waited for, by the coroutine that has sent it wherever it is now, or by the copy
that has; a lost one fails the fence of a SPAWN that waits for it, else it is kept for the next fence (R107, R262, R264, R266). -/
def execPostedWriteAcknowledged (_who : Who) (pkg : Nat) (ack : Ack) (s : State) : Out :=
  let heard := !ack.ok && s.flight.any (·.fences pkg ack.seq)
  let s1 : State := if heard then
      { s with flight := s.flight.map fun e => if e.fences pkg ack.seq then e.fenceFailed else e }
    else s
  .next ((s1.mapExts fun e => e.acked pkg ack.seq (!ack.ok && !heard)).copyAcked pkg ack)

/-- A byte with its low or high nibble replaced: the high one where the number of the element is odd (R134). -/
def putNibble (b : Byte) (i x : Nat) : Byte :=
  BitVec.ofNat 8 (if i % 2 = 0 then b.toNat / 16 * 16 + x % 16 else b.toNat % 16 + x % 16 * 16)

/-- Bytes of a posted write at their home, with the doublewords that they make whole: of a copy's, those that its elements make whole
(R262, R350). -/
def State.postedWrite (s : State) (n : Nat) (pa : Pa) (bs : List Byte) : State :=
  let whole := match s.copyOf n with
    | some c => (wholeWords pa bs).filter c.whole.contains
    | none => wholeWords pa bs
  (s.putHome pa bs).takeWatches (paPkg pa) whole

/-- REMOTE_WRITE_AT_HOME: a one-line event of the package order there; what is not admitted or would merge with a failing
codeword is lost (R97, R262, R340, R366). Zero bytes stand for one nibble: bits [3:0] of val, in the half that bit 4 names. -/
def execRemoteWriteAtHome (who : Who) (pa : Pa) (bytes : Nat) (val : Nat) (q : Req) (s : State) : Out :=
  let n := Nat.max 1 bytes
  let ack := fun ok => Event.postedWriteAcknowledged who (paPkg pa) ⟨q.seq, ok⟩
  let again := s.again (.remoteWriteAtHome who pa bytes val q)
  if s.homeBusy pa then again
  else if !s.admits (pkgOf who.core) q.tenant pa n then .next (s.post (ack false))
  else if s.mergesFailing pa n then
    .next ((s.memoryError (pkgOf who.core) q.tenant 1 pa (mkCid who.core who.slot)).post (ack false))
  else if (s.mmioRead pa).isSome then
    if s.mmioHeld 0 pa then again else .next ((s.mmioWrite pa (BitVec.ofNat 64 val)).post (ack true))
  else if bytes = 0 then .next ((s.writeHome pa [putNibble (memGet s.mem pa) (val / 16) val]).post (ack true))
  else .next ((s.postedWrite q.seq pa (leBytes bytes val)).post (ack true))

/-- AMO_AT_HOME: one read-modify-write and its reply (R98 to R100). -/
def execAmoAtHome (who : Who) (r : Reg) (pa : Pa) (f : BitVec 6) (dbl : Bool) (op cmp ea : Word) (q : Req) (s : State) : Out :=
  let n := amoBytes dbl
  let ack := fun ok => Event.postedWriteAcknowledged who (paPkg pa) ⟨q.seq, ok⟩
  if s.homeBusy pa || s.readBusy pa n then s.again (.amoAtHome who r pa f dbl op cmp ea q)
  else if !s.admits (pkgOf who.core) q.tenant pa n then .next (s.posts [amoFailed who r dbl ea, ack false])
  else if s.failing pa then
    .next ((s.memoryError (pkgOf who.core) q.tenant 1 pa (mkCid who.core who.slot)).posts [amoFailed who r dbl ea, ack true])
  else
    let old := leNat (memBytes s.mem pa n)
    let bs := leBytes n (amoNew f.toNat (8 * n) old (amoArg dbl op) (amoArg dbl cmp))
    .next (((s.noteReads ((List.range n).map (pa + ·))).writeHome pa bs).posts
      [.pendingRegisterCompletion who r (amoResult dbl old) none, ack true])

/-- The retry pattern (R101). -/
def retryPattern : Word := 0x7FFFFFFFFFFFFFFF

/-- Deferral entries in use at the home of an address (R234). -/
def State.deferredAt (s : State) (pa : Pa) : Nat :=
  ((s.pkg (paPkg pa)).deferred.filter fun x => s.homeOf x.pa == s.homeOf pa).length

/-- FUTURE_LOAD_AT_HOME: answered with the payload, deferred, or answered with the retry pattern (R101, R234). -/
def execFutureLoadAtHome (who : Who) (r : Reg) (pa : Pa) (q : LoadReq) (s : State) : Out :=
  let p := paPkg pa
  let y := s.pkg p
  if !y.on || s.readBusy pa 8 then s.again (.futureLoadAtHome who r pa q)
  else if !s.admits (pkgOf who.core) q.tenant pa 8 then .next (s.complete who r 0 (some q.ea))
  else if s.failing pa then
    .next ((s.memoryError (pkgOf who.core) q.tenant 1 pa (mkCid who.core who.slot)).complete who r 0 (some q.ea))
  else
    let w := memWord s.mem pa
    let s := s.noteRuns [(pa, 8)]
    let y := s.pkg p
    if field w 63 1 = 1 then .next (s.complete who r (w &&& 0x7FFFFFFFFFFFFFFF) none)
    else if s.deferredAt pa < 256 then .next (s.setPkg p { y with deferred := y.deferred ++ [⟨pa, who, r⟩] })
    else .next (s.complete who r retryPattern none)

/-- A lost store to a package, kept for the coroutine's next fence (R107). -/
def State.storeLost (s : State) (who : Who) (pkg : Nat) : State :=
  s.mapExt who fun e => { e with lost := if e.lost.contains pkg then e.lost else e.lost ++ [pkg] }

/-- FUTURE_STORE_AT_HOME: the word is filled and every deferred LDF on it answered, in order; one that the package does not admit, or
that would merge with a failing codeword, is reported as a lost store (R101, R234, R340, R366). -/
def execFutureStoreAtHome (who : Who) (pa : Pa) (q : StoreReq) (s : State) : Out :=
  if !s.released q.req.after || s.homeBusy pa then s.again (.futureStoreAtHome who pa q)
  else if !s.admits (pkgOf who.core) q.req.tenant pa 8 then .next (s.storeLost who (paPkg pa))
  else if s.mergesFailing pa 8 then
    .next ((s.memoryError (pkgOf who.core) q.req.tenant 1 pa (mkCid who.core who.slot)).storeLost who (paPkg pa))
  else
    let pay := q.val &&& 0x7FFFFFFFFFFFFFFF
    let s1 := s.writeHome pa (leBytes 8 (pay ||| 0x8000000000000000).toNat)
    let y := s1.pkg (paPkg pa)
    let mine := y.deferred.filter (·.pa == pa)
    .next ((s1.setPkg (paPkg pa) { y with deferred := y.deferred.filter (·.pa != pa) }).posts
      (mine.map fun x => .pendingRegisterCompletion x.who x.reg pay none))

end Sys2Proof.Machine
end

