-- ==== Sys2Proof/Machine/Tokens.lean ====
section
/-!
DEFINITION. Token words and cells at their home: arming, signalling and raising (R223 to R228), waiters and the
lost-wake-up protocol (R229 to R233), the await instructions (R209 to R211) and mailboxes (R219, R220).
-/

namespace Sys2Proof.Machine

/-! ### At the home -/

/-- A waiter's condition holds as its word stands after a firing (R231). -/
def Wait.wokenBy (x : Wait) (w : Word) : Bool :=
  match x with
  | .generation _ _ _ => true
  | .highWater _ _ _ => true
  | .count _ _ _ => tokCnt w ≤ 0
  | _ => false

/-- The slots of a core that await one of its cells (R209). -/
def Core.cellWaiters (c : Core) (n : Nat) : List Nat := (c.slots.filter fun x => x.2.wait == .cell n).map (·.1)

/-- The coroutines of the owning core that await the cell at an address go on where its CNT is 0 or below (R209, R231). -/
def State.wakeCell (s : State) (pa : Pa) (w : Word) : State :=
  match s.region pa with
  | .cell c =>
    let g := paPkg pa * 1024 + c
    if tokCnt w ≤ 0 then ((s.core g).cellWaiters (paLocal pa % 2048 / 8)).foldl (fun s k => s.signalSlot g k) s else s
  | _ => s

/-- A head's count waiter at a word that has fired is woken and removed where the word's CNT is 0 or below (R231, R321). -/
def Queue.fired (x : Queue) (pa : Pa) (w : Word) : Queue :=
  if tokCnt w ≤ 0 then { x with after := x.after.filter (· != pa) } else x

/-- What a queue's distributor does next at a firing: it looks at a launch token of a queue in service, and at a head that awaited the word
(R316, R321). -/
def Queue.wakes (x : Queue) (p : Nat) (t : BitVec 6) (q : BitVec 4) (pa : Pa) : List Event :=
  (if field x.ctl 63 1 = 1 ∧ x.qtok.toNat = pa then [.launchTokenFiring p t q] else []) ++
  (if x.after.contains pa then [.afterTokenEligible p t q] else [])

/-- The distributors that have registered on a word act on its firing (R316, R321). -/
def State.wakeQueues (s : State) (pa : Pa) (w : Word) : State :=
  let events := s.pkgs.flatMap fun y => y.2.tenants.flatMap fun t => (List.finRange 16).flatMap fun (q : Fin 16) =>
    t.2.queues[q].wakes y.1 (BitVec.ofNat 6 t.1) (BitVec.ofNat 4 q.val) pa
  if events = [] then s
  else
    let tenant := fun (t : Nat × Tenant) => (t.1, { t.2 with queues := t.2.queues.map fun (x : Queue) => x.fired pa w })
    let pkgs := s.pkgs.map fun (y : Nat × Pkg) => (y.1, { y.2 with tenants := y.2.tenants.map tenant })
    { s with pkgs := pkgs }.posts events

/-- The waiters of a word that has fired: those whose condition holds are woken and removed (R231). -/
def State.wakeWaiters (s : State) (pa : Pa) (w : Word) : State :=
  let y := s.pkg (paPkg pa)
  let go := y.waiters.filter fun x => x.pa == pa && x.wait.wokenBy w
  let s1 := s.setPkg (paPkg pa) { y with waiters := y.waiters.filter fun x => !(x.pa == pa && x.wait.wokenBy w) }
  ((s1.posts (go.map fun x => .waiterWake x.who)).wakeCell pa w).wakeQueues pa w

/-- The eight bytes of a word. -/
def wordBytes (pa : Pa) : List Pa := (List.range 8).map (pa + ·)

/-- A token operation on the word at an address: dropped where the word has no home or its codeword fails, else one
indivisible step (R225, R284, R380). -/
def State.tokenOp (s : State) (x : Sender) (pa : Pa) (f : Word → Word × Bool) : State :=
  if s.homeOf pa == .nowhere then s
  else if s.failing pa then match x with
    | .coroutine w q => s.memoryError (pkgOf w.core) q.tenant 1 pa (mkCid w.core w.slot)
    | .unit p t cid => s.memoryError p t 2 pa cid
    | .host p t => s.memoryError p t 2 pa 0
  else
    let r := f (memWord s.mem pa)
    let s1 := (s.noteReads (wordBytes pa)).writeHome pa (leBytes 8 r.1.toNat)
    if r.2 then s1.wakeWaiters pa r.1 else s1

/-- The sender's earlier writes have been performed (R264). -/
def State.senderReleased (s : State) : Sender → Bool
  | .coroutine _ q => s.released q.after
  | _ => true

/-- The tenant that a sender acts for. -/
def senderTenant : Sender → BitVec 6
  | .coroutine _ q => q.tenant
  | .unit _ t _ => t
  | .host _ t => t

/-- A token operation arrives at its word: it waits for its coroutine's earlier writes (R264), and is dropped where the
other package does not admit it (R340). -/
def State.tokenEvent (s : State) (x : Sender) (pa : Pa) (e : Event) (f : Word → Word × Bool) : Out :=
  if !s.senderReleased x || s.homeBusy pa then s.again e
  else if !s.admits (senderPkg x) (senderTenant x) pa 8 then .next s
  else .next (s.tokenOp x pa f)

/-- TOKEN_ARM_AT_HOME (R225). -/
def execTokenArmAtHome (sender : Sender) (pa : Pa) (op : Word) (s : State) : Out :=
  s.tokenEvent sender pa (.tokenArmAtHome sender pa op) fun w => (tokArm w op, false)

/-- TOKEN_SIGNAL_AT_HOME (R225). -/
def execTokenSignalAtHome (sender : Sender) (pa : Pa) (amount : Int) (s : State) : Out :=
  s.tokenEvent sender pa (.tokenSignalAtHome sender pa amount) fun w => tokSignal w amount

/-- TOKEN_RAISE_AT_HOME (R225). -/
def execTokenRaiseAtHome (sender : Sender) (pa : Pa) (amount : Int) (s : State) : Out :=
  s.tokenEvent sender pa (.tokenRaiseAtHome sender pa amount) fun w => tokRaise w amount

/-- WAITER_WAKE: the coroutine becomes runnable, unless the slot has another occupant (R195, R231). -/
def execWaiterWake (who : Who) (s : State) : Out :=
  let x := (s.core who.core).slot who.slot
  .next (if x.gen = who.gen then s.signalSlot who.core who.slot else s)

/-! ### Snapshots and registrations (R230, R232) -/

/-- A count waiter. -/
def Wait.isCount (x : Wait) : Bool :=
  match x with
  | .count _ _ _ => true
  | _ => false

/-- The wait with the generation that its snapshot showed; the generation waiters keep their own (R230). -/
def Wait.observe (x : Wait) (w : Word) : Wait :=
  match x with
  | .count pa _ va => .count pa (tokGen w) va
  | y => y

/-- register()'s test (R230). -/
def Wait.goes (x : Wait) (w : Word) : Bool :=
  match x with
  | .count _ g _ => tokCnt w ≤ 0 || (!tokHw w && tokGen w != g)
  | .generation _ g _ => tokGen w != g
  | .highWater _ g _ => tokGen w != g
  | _ => false

/-- The condition as a snapshot shows it (R209). -/
def Wait.holds (x : Wait) (w : Word) : Bool :=
  match x with
  | .count _ _ _ => tokCnt w ≤ 0
  | .generation _ g _ => tokGen w != g
  | _ => false

/-- Waiter entries that the table of a word's home has (R229). -/
def Home.waiterEntries : Home → Nat
  | .core _ => 256
  | _ => 4096

/-- The table at a word's home is full; a wake watch takes an entry as a waiter does (R229, R342). -/
def State.waitersFull (s : State) (pa : Pa) : Bool :=
  let y := s.pkg (paPkg pa)
  let here := fun (x : Pa) => s.homeOf x == s.homeOf pa
  (s.homeOf pa).waiterEntries ≤ (y.waiters.filter fun x => here x.pa).length + (y.watches.filter fun x => here x.1).length

/-- What a running slot's await stands for is over. -/
def State.clearWait (s : State) (g : CoreId) (k : Nat) : State :=
  let c := s.core g
  s.setCore g (c.setSlot k { c.slot k with wait := .nothing })

/-! ### A strip of SETVLHW (R112 to R114) -/

/-- The vector registers after a change of D, which zeroes every one (R113). -/
def Co.reshaped (c : Co) (dc : BitVec 2) : Co := if dc.toNat = vtDc c.vtype then c else { c with v := [] }

/-- vtype, vl and vstart as SETVL leaves them, with vl in s[d] (R112). -/
def Co.withVl (c : Co) (d : Reg) (dc : BitVec 2) (t : BitVec 4) (vl : Nat) : Co :=
  { c.reshaped dc with vtype := dc ++ t, vl := BitVec.ofNat 17 vl, vstart := 0 }.wr d (BitVec.ofNat 64 vl)

/-- vlmax(t, d) (R112). -/
def vlmaxOf (t : BitVec 4) (dc : BitVec 2) : Nat := vlmaxW (tyWidth t.toNat) (dcount dc.toNat)

/-- How far the producer is ahead: the sign-extended CNT less sbase, as a signed 64-bit number (R114). -/
def highWaterAvail (w sbase : Word) : Int := (ofInt (tokCnt w) - sbase).toInt

/-- The snapshot's word as a running SETVLHW takes it: the grant, or the wait for another generation, with every register saved (R114). -/
def State.strip (s : State) (who : Who) (pa : Pa) (va : Word) (d : Reg) (dc : BitVec 2) (t : BitVec 4) (avl w : Word) : Out :=
  let co := s.co
  let avail := highWaterAvail w co.sbase
  let s1 := s.clearWait s.focus who.slot
  if 0 < avail then
    .next (s1.setCo (co.withVl d dc t (Nat.min (Nat.min avl.toNat (vlmaxOf t dc)) avail.toNat))).settle
  else if !s.cur.settled then s.again (.tokenSnapshot who)
  else
    let s2 := s1.setCo { co.reshaped dc with vtype := dc ++ t }
    .next ((s2.stop s.focus true 0 .suspended (.highWater pa (tokGen w) va) co.pc).post (.tokenRegistration who))

/-- TOKEN_SNAPSHOT of a running coroutine's await or SETVLHW: it goes on, takes cause 10 or 8 at its own head, or stops and registers
(R114, R210, R230, R233, R380). -/
def execTokenSnapshot (who : Who) (s : State) : Out :=
  let g := who.core
  let c := s.core g
  let x := c.slot who.slot
  if x.gen ≠ who.gen ∨ c.running ≠ some who.slot then .next s
  else match x.wait.token with
    | none => .next s
    | some (pa, _, va) =>
      let s1 := { s.clearWait g who.slot with focus := g }
      if !(s.pkg (paPkg pa)).on || s.readBusy pa 8 then s.again (.tokenSnapshot who)
      else if !s.admits (pkgOf g) c.co.tenant pa 8 then .next (s1.takeTrap ⟨8, va, 0, none⟩ c.co.pc)
      else if s.failing pa then .next (s1.takeTrap ⟨8, va, 0, some pa⟩ c.co.pc)
      else
        let s := s.noteReads (wordBytes pa)
        let s1 := s1.noteReads (wordBytes pa)
        let w := memWord s.mem pa
        match x.wait with
        | .strip _ _ d dc t avl => { s with focus := g }.strip who pa va d dc t avl w
        | _ =>
        if x.wait.holds w then
          if x.wait.isCount && tokOverrun w then .next (s1.takeTrap ⟨10, BitVec.ofNat 64 pa, 0, none⟩ c.co.pc)
          else .next s1.settle
        else if !c.settled then s.again (.tokenSnapshot who)
        else .next ((s1.retire.stop g false x.live .suspended (x.wait.observe w) x.head).post (.tokenRegistration who))

/-- TOKEN_REGISTRATION at the home: the coroutine goes on, is entered as a waiter, or is refused (R230, R380). A refused one polls again
later, and requests that follow it do not wait for that (R232). -/
def execTokenRegistration (who : Who) (s : State) : Out :=
  let c := s.core who.core
  let x := c.slot who.slot
  if x.gen ≠ who.gen ∨ !(x.st == .suspended || x.st == .spilled || x.st == .evicted) then .next s
  else match x.wait.token with
    | none => .next s
    | some (pa, _, va) =>
      if !(s.pkg (paPkg pa)).on || s.readBusy pa 8 then s.again (.tokenRegistration who)
      else if s.failing pa || !s.admits (pkgOf who.core) x.co.tenant pa 8 then
        let s1 := s.setCore who.core (c.setSlot who.slot { x with wait := .failed va })
        let s2 := if s.failing pa then s1.memoryError (pkgOf who.core) x.co.tenant 1 pa x.co.cid else s1
        .next (s2.signalSlot who.core who.slot)
      else
        let s := s.noteReads (wordBytes pa)
        if x.wait.goes (memWord s.mem pa) then .next (s.signalSlot who.core who.slot)
        else if s.waitersFull pa then .next (s.post (.tokenRepoll who))
        else
        let y := s.pkg (paPkg pa)
        .next (s.setPkg (paPkg pa) { y with waiters := y.waiters ++ [⟨pa, who, x.wait⟩] })

/-- TOKEN_REPOLL: a snapshot and a fresh registration (R232; DESIGN CHOICE, log 13). -/
def execTokenRepoll (who : Who) (s : State) : Out := .next (s.post (.tokenRegistration who))

/-! ### TOK (R226 to R228) -/

/-- A token command that is sent to the home of the word at s[a] (R226, R228). -/
def State.tokenCommand (s : State) (a b : Reg) (ev : Sender → Pa → Word → Event) : Out :=
  s.issue [a, b] [] fun s =>
    s.access (s.wordTarget .store false (s.rd a)) fun t pa =>
      let e := ev s.sender pa (s.rd b)
      s.endsWith t (.request pa e) fun u => u.sendRequest pa e

/-- The signed amount in the low 32 bits of a register (R225). -/
def amount32 (x : Word) : Int := signed 32 (field x 0 32)

/-- TARM (R226). -/
def execTarm (a b : Reg) (s : State) : Out := s.tokenCommand a b fun x pa v => .tokenArmAtHome x pa v

/-- TSIG (R226). -/
def execTsig (a b : Reg) (s : State) : Out := s.tokenCommand a b fun x pa v => .tokenSignalAtHome x pa (amount32 v)

/-- THW (R226). -/
def execThw (a b : Reg) (s : State) : Out := s.tokenCommand a b fun x pa v => .tokenRaiseAtHome x pa (amount32 v)

/-- TPOLL: s[d] pending until the snapshot, the word itself, returns (R226, R380). -/
def execTpoll (d a : Reg) (s : State) : Out :=
  s.issue [a] [d] fun s =>
    s.access (s.wordTarget .load false (s.rd a)) fun t pa =>
      let e := Event.remoteLoadAtHome s.who d [(pa, 8, [])] false (s.rd a) s.co.tenant
      s.endsWith (t.setCo (t.co.setPend d)) (.request pa e) fun u => u.sendRequest pa e

/-- A cell of the core in focus armed by its coroutine. -/
def State.armCell (s : State) (n : Nat) (op : Word) : State := s.tokenOp s.sender (cellPa s.focus n) fun w => (tokArm w op, false)

/-- TARMC: at once at the commit (R226). -/
def execTarmc (a b : Reg) (s : State) : Out :=
  s.issue [a, b] [] fun s =>
    let n := field (s.rd a) 0 8
    s.endsWith s (.armCell n (s.rd b)) fun u => u.armCell n (s.rd b)

/-- The core that a cell target names (R227). -/
def targetCore (x : Word) : CoreId := field x 20 12 * 1024 + field x 13 7 * 8 + field x 10 3

/-- The address of the cell that a cell target names. -/
def targetCell (x : Word) : Pa := cellPa (targetCore x) (field x 0 8)

/-- The tenant may signal the cell (R227). -/
def State.cellAllowed (s : State) (p : Nat) (t : BitVec 6) (x : Word) : Bool :=
  field x 8 2 == 0 && s.inPartition p t.toNat (field x 20 12) &&
    (field x 20 12 != p || (s.inTenant p t.toNat (field x 13 7) && !s.fusedOff (targetCore x)))

/-- The cell of an address is one of the core in focus. -/
def State.ownCell (s : State) (pa : Pa) : Bool :=
  match s.region pa with
  | .cell c => paPkg pa * 1024 + c == s.focus
  | _ => false

/-- A cell signalled by the coroutine in focus: at once where it is this core's and nothing holds the release, else by a request (R226,
R264). -/
def State.signalCell (s : State) (pa : Pa) (n : Int) : State :=
  if s.ownCell pa && s.senderReleased s.sender then s.tokenOp s.sender pa fun w => tokSignal w n
  else s.sendRequest pa (.tokenSignalAtHome s.sender pa n)

/-- TSIGC: at once at the commit where the cell is this core's and nothing holds the release, else sent (R226, R227, R264). -/
def execTsigc (a b : Reg) (s : State) : Out :=
  s.issue [a, b] [] fun s =>
    let x := s.rd a
    if !s.cellAllowed (pkgOf s.focus) s.co.tenant x then s.trapHere 6 x
    else
      let n := amount32 (s.rd b)
      s.endsWith s (.signalCell (targetCell x) n) fun u => u.signalCell (targetCell x) n

/-- A snapshot of a cell of the core in focus for a register. -/
def State.pollCell (s : State) (d : Reg) (n : Nat) : State := s.complete s.who d (memWord s.mem (cellPa s.focus n)) none

/-- TPOLLC: a snapshot at the commit (R226). -/
def execTpollc (d a : Reg) (s : State) : Out :=
  s.issue [a] [d] fun s =>
    let n := field (s.rd a) 0 8
    s.endsWith (s.setCo (s.co.setPend d)) (.pollCell d n) fun u => u.pollCell d n

/-! ### The await instructions (R209 to R211) -/

/-- What every form does first: it waits for the vector queue and for a loop's registers, and commits the chunk. -/
def State.awaiting (s : State) (k : State → Out) : Out :=
  if !s.cur.vq.isEmpty then .next s.stall
  else if s.retire.co.lpend then .next (s.loopWait s.retire)
  else match s.ownCommit with
    | none => .next (s.notYet s)
    | some t => k t

/-- The coroutine stops in an await with its live mask; it waits for pending element groups (R199, R210). -/
def State.suspend (s : State) (live : Word) (w : Wait) : Out :=
  if !s.cur.settled then .next s.holdOn
  else .next (s.retire.stop s.focus false live .suspended w s.co.pc)

/-- AWAIT: until s[d] is not pending (R209). -/
def execAwait (d : Reg) (live : Word) (s : State) : Out :=
  s.awaiting fun t => if t.co.isPend d then t.suspend live (.register d) else .next t.settle

/-- A token form: the home is asked for a snapshot (R210, R211, R230). -/
def State.awaitToken (s : State) (live va : Word) (w : Pa → Wait) : Out :=
  s.access (s.wordTarget .load false va) fun t pa =>
    t.awaiting fun u =>
      let c := u.cur
      let k := c.running.getD 0
      let u1 := u.setCur (c.setSlot k { c.slot k with wait := w pa, live := live, head := s.co.pc })
      .next ((u1.post (.tokenSnapshot u.who)).stall)

/-- AWAITW: until CNT of the token word at s[d] is 0 or below (R209). -/
def execAwaitw (d : Reg) (live : Word) (s : State) : Out :=
  s.issue [d] [] fun s => s.awaitToken live (s.rd d) fun pa => .count pa 0 (s.rd d)

/-- AWAITG: until GEN of the token word at s[d] differs from the low 16 bits of the next register (R209). -/
def execAwaitg (d : Reg) (live : Word) (s : State) : Out :=
  s.issue [d, d + 1] [] fun s =>
    s.awaitToken live (s.rd d) fun pa => .generation pa ((s.rd (d + 1)).setWidth 16) (s.rd d)

/-- AWAITB: until at most n sealed batches are outstanding (R209, R246). -/
def execAwaitb (n : Reg) (live : Word) (s : State) : Out :=
  s.awaiting fun t =>
    if t.ext.sealedB.length ≤ n.toNat then .next t.settle else t.suspend live (.batches n.toNat)

/-- AWAITC: until CNT of cell x:d of this core is 0 or below; cause 10 where STRICT and OVR are set (R209, R210). -/
def execAwaitc (x : BitVec 3) (d : Reg) (live : Word) (s : State) : Out :=
  let n := x.toNat * 32 + d.toNat
  s.awaiting fun t =>
    let w := memWord t.mem (cellPa t.focus n)
    if tokCnt w ≤ 0 then
      if tokOverrun w then .next (t.takeTrap ⟨10, BitVec.ofNat 64 n, 0, none⟩ s.co.pc) else .next t.settle
    else t.suspend live (.cell n)

/-! ### Mailboxes (R219, R220) -/

/-- A 64-byte aligned message address: its segments, or the trap. -/
def State.messageTarget (s : State) (k : Kind) (va : Word) : Acc (List Seg) :=
  if va.toNat % 64 ≠ 0 then .trap s ⟨k.cause, va, 0, none⟩ else s.target k false va 64

/-- MSEND: the message is read by the chunk and delivered after its commit; s[d] is pending (R219). -/
def execMsend (d a b : Reg) (s : State) : Out :=
  s.issue [a, b] [d] fun s =>
    s.access ((s.messageTarget .load (s.rd b)).bind fun t segs => t.readSegs (s.rd b) segs) fun u bs =>
        let e := Event.mailboxArrival ((s.rd a).setWidth 32)
          ⟨0, field (s.rd a) 2 8, s.co.cid, BitVec.ofNat 512 (leNat bs)⟩ s.who d s.co.tenant
        s.endsWith (u.setCo (u.co.setPend d)) (.message e) fun v => v.post e

/-- The word that MRECV writes for a message (R219). -/
def msgWord (m : Msg) : Word :=
  BitVec.ofNat 64 (2 ^ 63 + m.kind % 4 * 2 ^ 48 + m.slot % 256 * 2 ^ 40 + m.sender.toNat)

/-- The mailbox of the core in focus without its oldest message. -/
def State.popMessage (s : State) : State := s.setCur { s.cur with mailbox := s.cur.mailbox.drop 1 }

/-- MRECV: the oldest message stored at s[a], or s[d] := 0; the message is taken at the commit (R219, R250; DEDUCED, log 28). -/
def execMrecv (d a : Reg) (s : State) : Out :=
  s.issue [a] [d] fun s =>
    let va := s.rd a
    let other := match s.cur.handler with
      | some (cid, _) => cid != s.co.cid
      | none => false
    if va.toNat % 64 ≠ 0 then s.trapHere 6 va
    else match s.cur.mailbox with
      | [] => s.endsWith (s.wr d 0) (.takeMessage none) State.popMessage
      | m :: _ =>
        if other then s.ends (s.wr d 0)
        else s.access (s.messageTarget .store va) fun t segs =>
          s.access (t.writeHere va segs (leBytes 64 m.data.toNat)) fun u _ =>
            s.endsWith (u.wr d (msgWord m)) (.takeMessage (some m)) State.popMessage

/-- The handler of the core in focus. -/
def State.setHandler (s : State) (h : Option (BitVec 32 × Nat)) : State := s.setCur { s.cur with handler := h }

/-- MHAND: the handler and its arrival cell, or none (R219). -/
def execMhand (a : Reg) (s : State) : Out :=
  s.issue [a] [] fun s =>
    let x := s.rd a
    let cid : BitVec 32 := x.setWidth 32
    if field x 40 1 = 0 then s.endsWith s (.handler none) fun u => u.setHandler none
    else if cidCore cid ≠ s.focus then s.illegal (.mhand a)
    else
      let h := some (cid, field x 32 8)
      s.endsWith s (.handler h) fun u => u.setHandler h

/-- The destination of a message can be reached by the tenant (R219). -/
def State.mailboxOpen (s : State) (p : Nat) (t : BitVec 6) (dst : BitVec 32) : Bool :=
  let g := cidCore dst
  let lt := s.localTenant (pkgOf g) p t
  dst.toNat % 4 == 0 && !s.fusedOff g && s.inPartition p t.toNat (pkgOf g) &&
    match lt with
    | some u => s.inTenant (pkgOf g) u.toNat (clusterOf g % 128)
    | none => false

/-- A message put into a core's mailbox, which signals the arrival cell (R220). -/
def State.deliver (s : State) (g : CoreId) (m : Msg) : State :=
  let c := s.core g
  let s1 := s.setCore g { c with mailbox := c.mailbox ++ [m] }
  match c.handler with
  | some (_, n) => s1.tokenOp (.unit (pkgOf g) c.co.tenant 0) (cellPa g n) fun w => tokSignal w (-1)
  | none => s1

/-- MAILBOX_ARRIVAL: accepted, or refused with status 2; while its cluster is switched away a mailbox refuses as a full one does (R219, R220,
R328). -/
def execMailboxArrival (dst : BitVec 32) (m : Msg) (who : Who) (r : Reg) (tenant : BitVec 6) (s : State) : Out :=
  let g := cidCore dst
  if !(s.pkg (pkgOf g)).on || s.homeBusy (cellPa g 0) then s.again (.mailboxArrival dst m who r tenant)
  else if !s.mailboxOpen (pkgOf who.core) tenant dst then .next (s.complete who r (completionWord 2 1) none)
  else if 64 ≤ (s.core g).mailbox.length || (s.cluster (clusterOf g)).leaving then .next (s.complete who r (completionWord 2 0) none)
  else .next ((s.deliver g m).complete who r (completionWord 0 0) none)

end Sys2Proof.Machine
end

