-- ==== Sys2Proof/Machine/Vector.lean ====
section
/-!
DEFINITION. What the vector instructions share: which elements are active, the last source, element groups that are still
pending, and the vector queue (R70, R80, R115 to R118).
-/

namespace Sys2Proof

/-! ### Fields of a T32R tail (R80, R115) -/

/-- The mask that an instruction's activity reads. -/
def V32.mask (o : V32) : List (BitVec 3) := if o.masked then [o.mr] else []

/-- The vector register that the last source names, if it names one (R80). -/
def V32.vsrc (o : V32) : List Reg := if o.x = 0 then [o.b] else []

/-- The scalar register that the last source names, if it names one. -/
def V32.ssrc (o : V32) : List Reg := if o.x = 1 then [o.b] else []

/-- The immediate of the vi form, sign-extended (R80). -/
def V32.imm (o : V32) : Int := o.b.toInt

/-- The mask that VCMP writes. -/
def V32.md (o : V32) : BitVec 3 := o.d.setWidth 3

/-- The width of Y[6:3]'s type equals that of vtype's (R117). -/
def V32.sameWidth (o : V32) (c : Machine.Co) : Bool := Machine.tyWidth o.t.toNat == c.width

end Sys2Proof

namespace Sys2Proof.Machine

/-! ### Active elements (R115, R158) -/

/-- Element i lies in [vstart, vl) and in the group of a VISSUE word, where there is one. -/
def Co.within (c : Co) (grp : Option (BitVec 65536)) (i : Nat) : Bool :=
  c.vstart.toNat ≤ i && match grp with
    | some m => m.getLsbD i
    | none => true

/-- The elements that an instruction without a mask works on. -/
def Co.every (c : Co) (grp : Option (BitVec 65536)) : List Nat := (List.range c.vl.toNat).filter (c.within grp)

/-- The active elements, in ascending order. -/
def Co.active (c : Co) (grp : Option (BitVec 65536)) (o : V32) : List Nat :=
  (c.every grp).filter fun i => !o.masked || c.mbit o.mr i

/-- Elements of a register written at a width, and their flags ORed in (R49). -/
def Co.vput (c : Co) (d w : Nat) (xs : List (Nat × Nat × BitVec 5)) : Co :=
  (xs.foldl (fun c x => c.setElem d w x.1 x.2.1) c).orFlags (xs.foldl (fun f x => f ||| x.2.2) 0)

/-- Bits of a mask register written. -/
def Co.mput (c : Co) (d : BitVec 3) (xs : List (Nat × Bool)) : Co :=
  c.setMask d (xs.foldl (fun m x => maskPut m x.1 x.2) c.m[d.toNat])

/-- The element group that element i of a register lies in (R69). -/
def groupAt (w : Nat) (r : Reg) (i : Nat) : Nat × Nat := (r.toNat, i * w / 2048)

/-- Registers that exist under the current D (R70). -/
def Co.regsOk (c : Co) (l : List Reg) : Bool := l.all fun r => r.toNat < c.nregs

/-! ### A vector instruction that computes in registers alone -/

/-- What an instruction of majors 0x21 to 0x28 is: its check at issue, the scalar registers it reads and writes, the
vector registers and masks it reads, the element groups and masks it touches, and what it computes. The two words are
the values of its scalar fields A and B at issue; the word it answers is for its scalar destination. -/
structure VSem where
  ok    : Co → Bool
  rs    : List Reg
  dst   : Option Reg
  vsrc  : List Reg
  msrc  : List (BitVec 3)
  touch : Word → Word → Co → Option (BitVec 65536) → List (Nat × Nat)
  masks : List (BitVec 3)
  run   : Word → Word → Option (BitVec 65536) → Co → Co × Word

/-- An instruction that writes, at each active element of the destination, what its sources give at that element. -/
def VSem.map (o : V32) (ok : Co → Bool) (rs : List Reg) (srcs : List (Reg × (Co → Nat))) (wd : Co → Nat)
    (f : Word → Word → Co → Nat → Nat × BitVec 5) : VSem where
  ok := fun c => ok c && c.regsOk (o.d :: srcs.map (·.1))
  rs := rs
  dst := none
  vsrc := srcs.map (·.1)
  msrc := o.mask
  touch := fun _ _ c grp => (c.active grp o).flatMap fun i => groupAt (wd c) o.d i :: srcs.map fun x => groupAt (x.2 c) x.1 i
  masks := o.mask
  run := fun a b grp c => (c.vput o.d.toNat (wd c) ((c.active grp o).map fun i => (i, f a b c i)), 0)

/-- Where a run of pending element groups or masks meets what an instruction touches (R118, R276). -/
def Ext.meets (e : Ext) (touch : List (Nat × Nat)) (masks : List (BitVec 3)) : Bool :=
  (touch.any fun t => (e.vpend ++ e.cpend).any fun p => p.reg == t.1 && p.grp == t.2) ||
    masks.any fun m => e.mpend.getLsbD m.toNat

/-- Something that the instruction touches is pending; what it touches is listed only where anything is pending. -/
def Ext.holds (e : Ext) (touch : Unit → List (Nat × Nat)) (masks : List (BitVec 3)) : Bool :=
  if e.vpend = [] ∧ e.cpend = [] ∧ e.mpend = 0 then false else e.meets (touch ()) masks

/-! ### Errors in vector and mask registers (R367) -/

/-- An uncorrectable error in a register that the instruction reads: the register's number in its file. -/
def Ext.badVector (e : Ext) (vs : List Reg) (ms : List (BitVec 3)) : Option (Nat × Nat) :=
  match vs.find? fun r => e.badRegs.contains (1, r.toNat) with
  | some r => some (1, r.toNat)
  | none => match ms.find? fun m => e.badRegs.contains (2, m.toNat) with
    | some m => some (2, m.toNat)
    | none => none

/-- The instruction reads vector and mask registers, or meets an error in one. -/
def State.vread (s : State) (vs : List Reg) (ms : List (BitVec 3)) (k : Out) : Out :=
  match s.ext.badVector vs ms with
  | some (f, n) => .next (if s.trapReady then s.registerError f n else s.notYet s)
  | none => k

/-! ### The queue (R118) -/

/-- An instruction with what it captures, in the chunk that executes. -/
def Co.entry (c : Co) (i : Instr) (a b : Reg) : VEntry :=
  ⟨i, c.vl, c.vtype, c.vstart, c.rd a, c.rd b, c.seed, c.sbase, false⟩

/-- The registers as an entry captured them, for its execution. -/
def Co.asCaptured (c : Co) (e : VEntry) : Co :=
  { c with vl := e.vl, vtype := e.vtype, vstart := e.vstart, seed := e.seed, sbase := e.sbase }

/-- The registers after an entry has executed: what it captured is the coroutine's own again. -/
def Co.afterEntry (c c' : Co) : Co :=
  { c' with vl := c.vl, vtype := c.vtype, vstart := c.vstart, seed := c.seed, sbase := c.sbase }

/-- The entry executes. -/
def VSem.execute (m : VSem) (e : VEntry) (c : Co) : Co × Word :=
  let r := m.run e.a e.b none (c.asCaptured e)
  (c.afterEntry r.1, r.2)

/-- The entry waits for something pending. -/
def VSem.held (m : VSem) (e : VEntry) (c : Co) (x : Ext) : Bool :=
  x.holds (fun _ => m.touch e.a e.b (c.asCaptured e) none) m.masks

/-- A vector instruction of this kind, with its scalar fields A and B: vstart becomes 0 as it issues; it executes at once
where nothing is before it and nothing it touches is pending, else it takes a place of the sixteen in the queue (R115 to R118). -/
def State.vector (s : State) (i : Instr) (a b : Reg) (m : VSem) : Out :=
  if !m.ok s.co then s.illegal i
  else s.issue m.rs m.dst.toList fun s =>
    s.vread m.vsrc m.msrc <|
      let e := s.co.entry i a b
      if s.cur.vq.isEmpty && !m.held e s.co s.ext then
        let r := m.execute e s.co
        let c := { r.1 with vstart := 0 }
        (s.setCo (match m.dst with
          | some d => c.wr d r.2
          | none => c)).finish
      else if 16 ≤ s.cur.vq.length then .next s.stall
      else
        let c := { s.co with vstart := 0 }
        let c := match m.dst with
          | some d => c.setPend d
          | none => c
        ((s.setCur { s.cur with co := c, vq := s.cur.vq ++ [e] }).post (.vectorQueueExecute s.focus)).finish

end Sys2Proof.Machine
end

