-- ==== Sys2Proof/Machine/Copies.lean ====
section
/-!
DEFINITION. The copy engines: descriptors, registration with its range locks, completion (R235 to R246, R258 to R260,
R329, R330), deliveries to registers (R243, R245) and the exchange of a distributed index (R281 to R283).
-/

namespace Sys2Proof.Machine

/-! ### The descriptor (R235, R236) -/

/-- A little-endian number in bytes. -/
def leAt (b : List Byte) (off n : Nat) : Nat := leNat ((b.drop off).take n)

/-- A descriptor from its 256 bytes. -/
def Desc.of (b : List Byte) : Desc where
  src := BitVec.ofNat 64 (leAt b 0 8)
  dst := BitVec.ofNat 64 (leAt b 8 8)
  les := leAt b 0x10 1
  ndim := leAt b 0x11 1
  flags := leAt b 0x12 2
  ctgt := leAt b 0x14 4
  token := BitVec.ofNat 64 (leAt b 0x18 8)
  count := (List.range 6).map fun j => leAt b (0x20 + 4 * j) 4
  sstr := (List.range 6).map fun j => BitVec.ofNat 64 (leAt b (0x40 + 8 * j) 8)
  dstr := (List.range 6).map fun j => BitVec.ofNat 64 (leAt b (0x70 + 8 * j) 8)
  lo := (List.range 6).map fun j => leAt b (0xA0 + 4 * j) 4
  hi := (List.range 6).map fun j => leAt b (0xB8 + 4 * j) 4
  start := (List.range 6).map fun j => leAt b (0xD0 + 4 * j) 4

/-- FLAGS.CLIP. -/
def Desc.clip (d : Desc) : Bool := bits d.flags 0 1 == 1
/-- FLAGS.LEGACY. -/
def Desc.legacy (d : Desc) : Bool := bits d.flags 1 1 == 1
/-- FLAGS.CELL. -/
def Desc.cell (d : Desc) : Bool := bits d.flags 2 1 == 1
/-- FLAGS.GRAN. -/
def Desc.gran (d : Desc) : Bool := bits d.flags 4 1 == 1
/-- FLAGS.PREF. -/
def Desc.pref (d : Desc) : Bool := bits d.flags 5 1 == 1
/-- es. -/
def Desc.es (d : Desc) : Nat := 2 ^ d.les

/-- The first in-bounds coordinate of dimension j and how many there are; (0, 0) where there is none (R236, R242). -/
def Desc.span (d : Desc) (j : Nat) : Nat × Nat :=
  let n := d.count.getD j 0
  if d.clip then
    let first := d.lo.getD j 0 - d.start.getD j 0
    let last := min n (d.hi.getD j 0 - d.start.getD j 0)
    if first < last then (first, last - first) else (0, 0)
  else (0, n)

/-- The in-bounds box. -/
def Desc.box (d : Desc) : List (Nat × Nat) := (List.range d.ndim).map d.span

/-- How many elements are in bounds. -/
def Desc.inside (d : Desc) : Nat := (d.box.map (·.2)).foldl (· * ·) 1
/-- How many elements there are. -/
def Desc.total (d : Desc) : Nat := (d.count.take d.ndim).foldl (· * ·) 1

/-- The coordinates of a box, dimension 0 fastest (R236). -/
def boxCoords : List (Nat × Nat) → List (List Nat)
  | [] => [[]]
  | (f, n) :: r => (boxCoords r).flatMap fun t => (List.range n).map fun i => (f + i) :: t

/-- base + the sum of coordinate x stride, modulo 2^64. -/
def strided (base : Word) : List Nat → List Word → Word
  | c :: cs, x :: xs => strided (base + BitVec.ofNat 64 c * x) cs xs
  | _, _ => base

/-- Source and destination of each in-bounds element, in coordinate order. -/
def Desc.elements (d : Desc) : List (Word × Word) :=
  (boxCoords d.box).map fun c => (strided d.src c d.sstr, strided d.dst c d.dstr)

/-- The copy writes the byte at an address. -/
def Desc.covers (d : Desc) (va : Word) : Bool := d.elements.any fun e => (va - e.2).toNat < d.es

/-! ### Reading and writing elements (R237, R240, R310, R366) -/

/-- Why an element ends its copy: the status, and the codeword that failed. -/
abbrev Ended := Nat × Option Pa

/-- The space that an engine translates in for a command of the chunk that has just committed: its mode at that chunk's end (R310). -/
def State.engineSpace (s : State) : Space := { s.space with core := none, mode := s.cur.chunk.start.mode }

/-- Status of a failed translation: 4, or 3 for an error on the walk. -/
def Miss.status : Miss → Nat
  | .page => 4
  | _ => 3

/-- A source byte that a load of it could not reach: a hole, the granary or kernel MMIO (R96, R137, R240). -/
def State.sourceClosed (s : State) (pa : Pa) : Bool :=
  match s.region pa with
  | .hole | .granary _ | .clusterMmio _ | .packageMmio => true
  | _ => false

/-- A source element's bytes as memory m holds them; none while an uncommitted chunk of a scratchpad's owner has written there (R254).
Those of a package that is off or does not admit the tenant fail (R339, R340). -/
def State.copyRead (s : State) (sp : Space) (m : List Host.Cell) (va : Word) (n : Nat) : Except Ended (Option (List Byte)) :=
  match s.translate sp .load va n with
  | .error (e, _) => .error (e.status, e.bad)
  | .ok segs =>
    let pas := segBytes segs
    if pas.any s.sourceClosed then .error (4, none)
    else if segs.any fun g => !(s.pkg (paPkg g.pa)).on || !s.carries (sp.cl / 128) g.pa ||
        !s.admits (sp.cl / 128) sp.tenant g.pa g.len then .error (3, none)
    else if segs.any fun g => s.readBusy g.pa g.len then .ok none
    else match pas.find? s.failing with
      | some pa => .error (3, some pa)
      | none => .ok (some (pas.map (memGet m)))

/-- A copy may write a destination byte: with GRAN in this die's granary alone, else in no granary, token cell or kernel MMIO
(R237, R329). -/
def State.destOpen (s : State) (cl : Nat) (gran : Bool) (pa : Pa) : Bool :=
  match s.region pa with
  | .granary n => gran && paPkg pa == cl / 128 && n == cl % 128 / 32
  | .cell _ | .clusterMmio _ | .packageMmio | .hole => false
  | _ => !gran

/-- A destination element's addresses; covers says which bytes the copy writes as a whole (R366). -/
def State.copyDest (s : State) (sp : Space) (gran : Bool) (covers : Word → Bool) (va : Word) (n : Nat) : Except Ended (List Pa) :=
  match s.translate sp .store va n with
  | .error (m, _) => .error (m.status, m.bad)
  | .ok segs =>
    if (segBytes segs).any fun pa => !s.destOpen sp.cl gran pa then .error (4, none)
    else match s.firstMerge covers va (segs.map fun g => (g.pa, g.len)) with
      | some pa => .error (3, some pa)
      | none => .ok (segBytes segs)

/-- The aligned doublewords that writes in order make whole, with their values (R350). -/
def wholeOf : List (Pa × Byte) → List (Pa × Word)
  | [] => []
  | x :: r =>
    if x.1 % 8 = 0 ∧ (r.take 7).map (·.1) = (List.range 7).map (x.1 + 1 + ·) then
      (x.1, BitVec.ofNat 64 (leNat (x.2 :: (r.take 7).map (·.2)))) :: wholeOf r
    else wholeOf r

/-- Pages of 64 KiB that an element touches, with the ASID, for TLBINV (R307). -/
def elementPages (asid : BitVec 14) (va : Word) (n : Nat) : List (BitVec 14 × Nat) :=
  if isAlias va then [] else [(asid, va.toNat / 65536), (asid, (va.toNat + n - 1) / 65536)].eraseDups

/-! ### Range locks (R239, R258 to R260; DEDUCED, log 14) -/

/-- The mapped segments of a run, page by page. -/
def State.lockPages (s : State) (sp : Space) : Nat → Word → Nat → List Seg
  | _, _, 0 => []
  | 0, _, _ => []
  | fuel + 1, va, n =>
    let n1 := min n (65536 - va.toNat % 65536)
    let rest := s.lockPages sp fuel (va + BitVec.ofNat 64 n1) (n - n1)
    match s.translatePage sp .load va with
    | .ok (pa, u) => ⟨pa, n1, u⟩ :: rest
    | .error _ => rest

/-- The segments of the bounding range of elements, in this package alone. -/
def State.boundingSegs (s : State) (sp : Space) (vas : List Word) (es : Nat) : List Seg :=
  match vas.map (·.toNat) with
  | [] => []
  | x :: r =>
    let lo := r.foldl min x
    let n := r.foldl max x + es - lo
    let segs := if isAlias (BitVec.ofNat 64 lo) then [⟨lo % 2 ^ 58, n, true⟩]
      else s.lockPages sp (n / 65536 + 2) (BitVec.ofNat 64 lo) n
    segs.filter fun g => paPkg g.pa == sp.cl / 128

/-- The table that holds a range's entry, by its first byte, and how many entries it has (R239, R330). A source range whose first byte lies in a
token-cell window or a hole, of which the spec names no table, has one of 256 entries at its home (DESIGN CHOICE, log 63). -/
def State.lockTable (s : State) (pa : Pa) : Region × Home × Nat :=
  match s.region pa with
  | .granary d => (.granary d, .nowhere, 64)
  | .scratch c => (.scratch c, .nowhere, 64)
  | _ => (.hbm, s.homeOf pa, 256)

/-- Entries in use in the table of an address. -/
def State.lockEntries (s : State) (pa : Pa) : Nat :=
  ((s.pkg (paPkg pa)).locks.filter fun l => l.first && s.lockTable l.lo == s.lockTable pa).length

/-- The tables lack the entries of a registration's two ranges, which may share one (R239). -/
def State.tablesFull (s : State) (x y : List Seg) : Bool :=
  let lacks := fun (g : Seg) (n : Nat) => (s.lockTable g.pa).2.2 < s.lockEntries g.pa + n
  match x, y with
  | [], [] => false
  | g :: _, [] => lacks g 1
  | [], h :: _ => lacks h 1
  | g :: _, h :: _ => if s.lockTable g.pa == s.lockTable h.pa then lacks g 2 else lacks g 1 || lacks h 1

/-- A registration must wait for locked ranges (R260). -/
def State.lockMeets (s : State) (p : Nat) (dst src : List Seg) : Bool :=
  (s.pkg p).locks.any fun l =>
    (dst.any fun g => overlaps g.pa g.len l.lo l.len) || (!l.src && src.any fun g => overlaps g.pa g.len l.lo l.len)

/-- The locks of a range. -/
def rangeLocks (owner : Nat) (src : Bool) (token : Pa) (segs : List Seg) : List Lock :=
  segs.zipIdx.map fun x => ⟨owner, x.1.pa, x.1.len, src, token, x.2 == 0⟩

/-- A line lies in one of the segments. -/
def lineIn (segs : List Seg) (l : Nat) : Bool := segs.any fun g => g.pa / 128 ≤ l && l ≤ (g.pa + g.len - 1) / 128

/-- A registration squashes a chunk that has read a line of the destination or written a line of either range (R258). -/
def Chunk.hitBy (k : Chunk) (dst src : List Seg) : Bool :=
  k.reads.any (lineIn dst) || k.wrote.any fun l => lineIn dst l || lineIn src l

/-- It squashes the chunk of a core that waits for the weir. -/
def Core.waitingHit (c : Core) (dst src : List Seg) : Bool := c.waiting.any (·.hitBy dst src)

/-- The cores of whose uncommitted chunks a registration squashes one (R258). -/
def State.registrationHits (s : State) (p : Nat) (dst src : List Seg) : List CoreId :=
  (s.cores.filter fun x => pkgOf x.1 == p && x.2.running.isSome && (x.2.chunk.hitBy dst src || x.2.waitingHit dst src)).map (·.1)

/-- The registration would squash the holder of the sole grant: it waits (R252). -/
def State.registrationHeld (s : State) (p : Nat) (dst src : List Seg) : Bool :=
  match (s.pkg p).sole with
  | some h => (s.registrationHits p dst src).contains h
  | none => false

/-- The registration: its squashes and its locks (R239, R258). -/
def State.registerRange (s : State) (p owner : Nat) (dst src : List Seg) (token : Pa) : State :=
  let s1 := (s.registrationHits p dst src).foldl (fun s g => s.squash g ((s.core g).waitingHit dst src)) s
  let y := s1.pkg p
  s1.setPkg p { y with locks := y.locks ++ rangeLocks owner false token dst ++ rangeLocks owner true token src }

/-- The locks of an owner released. -/
def State.releaseLocks (s : State) (p owner : Nat) : State :=
  let y := s.pkg p
  s.setPkg p { y with locks := y.locks.filter (·.owner != owner) }

/-! ### Fills (R330) -/

/-- A plane fill of the package that reads a byte of the runs is under way (R330). -/
def State.fillsFrom (s : State) (p : Nat) (segs : List Seg) : Bool :=
  s.clusters.any fun x => x.1 / 128 == p && x.2.unit.filling && match x.2.unit.shadow with
    | some x => segs.any fun g => overlaps g.pa g.len x.w.pa (tileBytes x.w.t)
    | none => false

/-! ### Registration (R237 to R239) -/

/-- A token that the descriptor names: none, the word or cell to be signalled, or a reason to reject (R237). -/
def State.copyToken (s : State) (sp : Space) (d : Desc) : Except Unit (Option Pa) :=
  let p := sp.cl / 128
  if d.cell then
    let x := BitVec.ofNat 64 d.ctgt
    if s.cellAllowed p sp.tenant x then .ok (some (targetCell x)) else .error ()
  else if d.token = 0 then .ok none
  else if d.token.toNat % 8 ≠ 0 then .error ()
  else match s.translate sp .store d.token 8 with
    | .error _ => .error ()
    | .ok segs =>
      let pa := (segs.headD ⟨0, 0, false⟩).pa
      match s.region pa with
      | .granary _ | .clusterMmio _ | .packageMmio | .hole => .error ()
      | _ => .ok (some pa)

/-- A destination element lies where a copy may not write, which rejects its descriptor (R237); a hole ends the copy at the element
instead (R240). -/
def State.destForbidden (s : State) (sp : Space) (d : Desc) (va : Word) : Bool :=
  match s.translate sp .store va d.es with
  | .error _ => d.gran
  | .ok segs => (segBytes segs).any fun pa => !s.destOpen sp.cl d.gran pa && (d.gran || s.region pa != .hole)

/-- A register image of a number of bytes is overrun by an element (R237). -/
def imageOverrun (size es : Nat) (off : Word) : Bool := size < off.toNat + es

/-- A descriptor is rejected: STATUS 2 (R237). dstImage and srcImage are the sizes of the register images. -/
def State.rejects (s : State) (sp : Space) (grant : Bool) (d : Desc) (dstImage srcImage : Option Nat) : Bool :=
  d.ndim == 0 || 6 < d.ndim || 4 < d.les || 2 ^ 56 ≤ d.inside * d.es || (d.gran && (!grant || d.pref)) ||
    (match s.copyToken sp d with
      | .error _ => true
      | .ok _ => false) ||
    (match dstImage with
      | some n => d.gran || (d.legacy && d.ndim != 1) || d.elements.any fun e => imageOverrun n d.es e.2
      | none => d.elements.any fun e => s.destForbidden sp d e.2) ||
    (match srcImage with
      | some n => d.elements.any fun e => imageOverrun n d.es e.1
      | none => false)

/-- The clip message, but for STATUS and BYTES (R242). -/
def Desc.message (d : Desc) : BitVec 512 :=
  let word0 := if d.cell then d.ctgt else d.token.toNat
  let boxes := (List.range 6).map fun j => if j < d.ndim then (d.span j).1 + (d.span j).2 * 2 ^ 32 else 0
  BitVec.ofNat 512 (leNat (((word0 :: boxes) ++ [d.ndim]).flatMap (leBytes 8)))

/-- The clip message as it is posted: with the status and the bytes that the copy has written (R242). -/
def Copy.message (c : Copy) (m : BitVec 512) : BitVec 512 :=
  m ||| BitVec.ofNat 512 (c.status % 256 * 2 ^ 456 + (if c.pref then 0 else c.bytes) % 2 ^ 32 * 2 ^ 480)

/-- A copy that has been registered and has nothing to move yet. -/
def State.newCopy (s : State) (id kind : Nat) (d : Reg) : Copy where
  id := id
  kind := kind
  who := s.who
  cid := s.co.cid
  tenant := s.co.tenant
  reg := d
  status := 0
  work := none
  writes := []
  whole := []
  bytes := 0
  pref := false
  away := []
  sent := false
  token := none
  msg := none
  batch := 0
  vreg := 0
  groups := []
  dsts := []
  needVl := none
  pages := []
  bad := none
  started := false
  landed := false
  swap := none

/-- The copy joins the open batch and the engine, and its start is under way (R238, R246). -/
def State.addCopy (s : State) (c : Copy) : State :=
  let e := s.ext
  let b : Batch := match e.openB with
    | some b => { b with left := b.left + 1 }
    | none => ⟨s.ids, 1⟩
  let s1 : State := { s.setExt { e with openB := some b } with ids := s.ids + 1 }
  let cl := clusterOf s.focus
  let k := s1.cluster cl
  (s1.setCluster cl { k with copies := k.copies ++ [{ c with batch := b.id }] }).post (.copyStart cl c.id)

/-- What the engine is to do for a command of the running coroutine: nothing yet. -/
def State.newWork (s : State) : Work where
  asid := s.co.asid
  mode := s.cur.chunk.start.mode
  mem := s.mem
  image := none
  todo := []
  dests := []
  into := false
  gran := false
  pref := false
  group := none

/-- What a descriptor comes to at its registration: the copy, and the ranges that it locks. -/
def State.planCopy (s : State) (id : Nat) (reg : Reg) (d : Desc) (x : Sides) : Copy × List Seg × List Seg :=
  let sp := s.engineSpace
  let c := { s.newCopy id x.kind reg with vreg := x.vreg }
  if s.rejects sp s.co.grant d x.size (x.image.map (·.length)) then ({ c with status := 2 }, [], [])
  else
    let clipped := d.inside != d.total
    let token := match s.copyToken sp d with
      | .ok t => t
      | .error _ => none
    let vas := d.elements
    let pages := (vas.flatMap fun e =>
      (if x.image.isNone then elementPages sp.asid e.1 d.es else []) ++
      (if x.size.isNone && !d.pref then elementPages sp.asid e.2 d.es else []))
    let word := if d.cell || d.token = 0 then [] else elementPages sp.asid d.token 8
    let src := if x.image.isNone && !d.pref then s.boundingSegs sp (vas.map (·.1)) d.es else []
    let dst := if x.size.isNone && !d.pref then s.boundingSegs sp (vas.map (·.2)) d.es else []
    let work := { s.newWork with
      image := x.image, into := x.size.isSome, gran := d.gran, pref := d.pref
      todo := vas.map fun e => (e.1, e.2, d.es), dests := vas.map fun e => (e.2, d.es) }
    ({ c with
      status := if clipped then 1 else 0, work := some work, pref := d.pref, token := token, pages := (pages ++ word).eraseDups
      msg := if clipped then some d.message else none }, dst, src)

/-- The registration waits for locks: an entry that its tables lack, or a locked range (R239, R260). -/
def State.locksLack (s : State) (p : Nat) (dst src : List Seg) : Bool := s.lockMeets p dst src || s.tablesFull dst src

/-- The registration waits for something else than locks: a sole-mode chunk, or a plane's fill from its destination (R252, R330). -/
def State.copyHeld (s : State) (p : Nat) (dst src : List Seg) : Bool := s.registrationHeld p dst src || s.fillsFrom p dst

/-- The chunk holds a place of the engine for its copy command, which it registers at its commit (R238). -/
def Chunk.copies (k : Chunk) : Bool :=
  match k.after with
  | some (.copy _ _ _) => true
  | _ => false

/-- The engine of the cluster has a place, beside those of the copies registered and those that commands which wait hold (R238). -/
def State.enginePlace (s : State) : Bool :=
  let cl := clusterOf s.focus
  (s.cluster cl).copies.length + ((List.range 8).filter fun j => (s.core (cl * 8 + j)).waiting.any (·.copies)).length < 64

/-- The copy registered with its locks; a granary write makes the planes of its range stale (R330). -/
def State.registerCopy (s : State) (x : Copy × List Seg × List Seg) : State :=
  let s1 := s.addCopy x.1
  let gran := x.2.1.filter fun g => match s.region g.pa with
    | .granary _ => true
    | _ => false
  (s1.registerRange (pkgOf s.focus) x.1.id x.2.1 x.2.2 (x.1.token.getD 0)).stalePlanes (pkgOf s.focus)
    (gran.map fun g => (g.pa, g.len))

/-- A run of n bytes as elements of 256 bytes, the last one as short as it comes, with their offsets; fuel elements at most. -/
def runElements (va : Word) (off : Nat) : Nat → Nat → List (Word × Word × Nat)
  | 0, _ => []
  | fuel + 1, n =>
    if n = 0 then []
    else (va + BitVec.ofNat 64 off, BitVec.ofNat 64 off, min n 256) :: runElements va (off + 256) fuel (n - 256)

/-- The pages of the table of a group register, for TLBINV (R307). -/
def tablePages (asid : BitVec 14) (g : Grp) : List (BitVec 14 × Nat) :=
  if g.valid then elementPages asid g.table (Nat.max 1 (8 * g.size.toNat)) else []

/-- What CPYVG registers (R245). -/
def State.planGroupCopy (s : State) (id : Nat) (d : Reg) (vreg : Nat) (g : Grp) (va : Word) (vl : BitVec 17) (n : Nat) :
    Copy × List Seg × List Seg :=
  let sp := s.engineSpace
  let work := { s.newWork with into := true, todo := runElements va 0 1024 n, group := some g }
  ({ s.newCopy id 4 d with
      vreg := vreg, needVl := some vl, pages := (elementPages sp.asid va n ++ tablePages sp.asid g).eraseDups, work := some work }, [],
    if n = 0 then [] else s.boundingSegs sp [va] n)

/-- A bit of a number. -/
def bitOf (x i : Nat) : Nat := bits x i 1

/-- The number with a bit inverted. -/
def flipBit (x i : Nat) : Nat := Nat.xor x (2 ^ i)

/-- What an XBSWAP registers: the outgoing half to be read, where the incoming one is to go too (R281, R282). -/
def State.planSwap (s : State) (id : Nat) (d : Reg) (g : Grp) (base : Word) (len p es q : Nat) : Copy × List Seg × List Seg :=
  let sp := s.engineSpace
  let k := s.newCopy id 5 d
  let m := len / es
  let r := g.rank.toNat
  if base.toNat % es ≠ 0 ∨ len % es ≠ 0 ∨ m = 0 ∨ 2 ^ Nat.log2 m ≠ m ∨ Nat.log2 m ≤ p ∨ g.size.toNat ≤ flipBit r q then
    ({ k with status := 2 }, [], [])
  else
    let away := (List.range m).filter fun l => bitOf l p != bitOf r q
    let va := fun (l : Nat) => base + BitVec.ofNat 64 (l * es)
    let work := { s.newWork with
      todo := away.map fun l => (va l, BitVec.ofNat 64 l, es), dests := away.map fun l => (va l, es), group := some g }
    ({ k with
      work := some work, pages := (elementPages sp.asid base len ++ tablePages sp.asid g).eraseDups
      swap := some { table := g.table, num := g.swaps, partner := 0, q := q, p := p, es := es, m := m, send := [], places := [] } },
      s.boundingSegs sp [base] len, [])

/-- What a copy command registers: the copy, and the ranges that it locks as destination and as source (R238, R239). -/
def State.planCommand (s : State) (id : Nat) (d : Reg) : CopyCommand → Copy × List Seg × List Seg
  | .described x sides => s.planCopy id d x sides
  | .registers vreg groups dst => ({ s.newCopy id 3 d with vreg := vreg, groups := groups, dsts := [dst] }, [], [])
  | .group vreg g va vl n => s.planGroupCopy id d vreg g va vl n
  | .swap g base len p es q => s.planSwap id d g base len p es q

/-- The element groups that a copy was to write are pending no more, where it writes none (R237, R239, R243). -/
def State.dropPending (s : State) (c : Copy) : State :=
  if c.status = 2 ∨ c.status = 5 then s.setExt { s.ext with vpend := s.ext.vpend.filter (·.id != c.id) } else s

/-- The registration of a copy command waits for locks (R239, R260). -/
def State.commandLacks (s : State) (id : Nat) (d : Reg) (c : CopyCommand) : Bool :=
  let x := s.planCommand id d c
  s.locksLack (pkgOf s.focus) x.2.1 x.2.2

/-- The registration of a copy command cannot be made now (R239, R252, R260, R330). -/
def State.commandHeld (s : State) (id : Nat) (d : Reg) (c : CopyCommand) : Bool :=
  let x := s.planCommand id d c
  s.locksLack (pkgOf s.focus) x.2.1 x.2.2 || s.copyHeld (pkgOf s.focus) x.2.1 x.2.2

/-- The registration of a copy command (R238, R239). -/
def State.startCommand (s : State) (id : Nat) (d : Reg) (c : CopyCommand) : State :=
  let x := s.planCommand id d c
  (s.registerCopy x).dropPending x.1

/-- A copy command whose registration has waited 4,096 cycles for locks completes with STATUS 5 (R239). -/
def State.expireCommand (s : State) (id : Nat) (d : Reg) (c : CopyCommand) : State :=
  let x := (s.planCommand id d c).1
  let y := { s.newCopy id x.kind d with status := 5, vreg := x.vreg }
  (s.addCopy y).dropPending y

/-- A copy command: it takes a place of the engine, the element groups that it is to write, ps, become pending, and its chunk ends with the
registration (R238, R239, R243). -/
def State.copyCommand (s s' : State) (d : Reg) (c : CopyCommand) (ps : List (Nat × Nat)) : Out :=
  if !s.enginePlace then .next s.stall
  else
    let id := s'.ids
    let t := { s' with ids := id + 1 }
    s.endsHeld (t.setExt { t.ext with vpend := t.ext.vpend ++ ps.map fun x => ⟨id, x.1, x.2⟩ }) (.copy id d c)
      (fun u => u.commandHeld id d c) fun u => u.startCommand id d c

/-! ### The forms (R243 to R246) -/

/-- The vector registers and masks that a copy command uses at issue: it waits while the queue holds anything or they are
pending (R118, R276), and meets an error in those that it reads (R367). -/
def State.copyUses (s : State) (reads : Bool) (a n : Nat) (ms : List (BitVec 3)) (k : Out) : Out :=
  let rs := (List.range n).map fun i => BitVec.ofNat 5 (a + i)
  if !s.cur.settled ||
      s.ext.holds (fun _ => rs.flatMap fun r => (List.range (s.co.vbytes / 256)).map fun g => (r.toNat, g)) ms then .next s.stall
  else s.vread (if reads then rs else []) ms k

/-- The first groups of registers from v[a] on, as CPYRR copies them: with vl = 0 the registers alone, without a byte (R245). -/
def Co.leadGroups (c : Co) (a n : Nat) : List (Nat × Nat × List Byte) :=
  (List.range n).flatMap fun k =>
    if c.savedGroups = 0 then [(k, 0, [])]
    else (List.range c.savedGroups).map fun g => (k, g, c.vread (a + k) (256 * g) 256)

/-- The bytes of a descriptor or table read as a load of the chunk (R238, R269). -/
def State.chunkRead (s : State) (va : Word) (n : Nat) : Acc (List Byte) :=
  (s.target .load false va n).bind fun t segs => t.readSegs va segs

/-- A descriptor in memory (R238). -/
def State.readDesc (s : State) (va : Word) : Acc Desc :=
  if va.toNat % 8 ≠ 0 then .trap s ⟨5, va, 0, none⟩
  else (s.chunkRead va 256).bind fun t b => .ok t (Desc.of b)

/-- CPY with its descriptor in memory (R243). -/
def execCpyMem (d a : Reg) (s : State) : Out :=
  s.issue [a] [d] fun s =>
    s.access (s.readDesc (s.rd a)) fun t x =>
      s.copyCommand (t.setCo (t.co.setPend d)) d (.described x ⟨0, 0, none, none⟩) []

/-- A command with a register group of n registers from v[a] on: a group beyond D raises illegal instruction before its scalar registers
are looked at (R70, R83). -/
def State.copyForm (s : State) (i : Instr) (a n : Nat) (rs ws : List Reg) (k : State → Out) : Out :=
  if s.co.nregs < a + n then s.illegal i else s.issue rs ws k

/-- CPY with its descriptor in element group 0 of v[A] (R243). -/
def execCpyVec (d a : Reg) (s : State) : Out :=
  s.copyForm (.cpyVec d a) a.toNat 1 [] [d] fun s =>
    s.copyUses true a.toNat 1 [] <|
      let x := Desc.of (s.co.vread a.toNat 0 256)
      s.copyCommand (s.setCo (s.co.setPend d)) d (.described x ⟨0, 0, none, none⟩) []

/-- One descriptor of CPYB offered at the registration: accepted, or dropped without effect where the engine has no place or it would
wait for locks (R244, R260). Where it waits for something else, none: the registration waits. -/
def State.offerCopy (s : State) (d : Desc) : Option (State × Bool) :=
  let x := { s with ids := s.ids + 1 }.planCopy s.ids 0 d ⟨0, 0, none, none⟩
  if !s.enginePlace || s.locksLack (pkgOf s.focus) x.2.1 x.2.2 then some (s, false)
  else if s.copyHeld (pkgOf s.focus) x.2.1 x.2.2 then none
  else some ({ s with ids := s.ids + 1 }.registerCopy x, true)

/-- The descriptors of CPYB offered in order; the mask of those accepted. -/
def State.offerCopies (s : State) : List (Nat × Desc) → Option (State × Nat)
  | [] => some (s, 0)
  | (j, d) :: r =>
    match s.offerCopy d with
    | none => none
    | some a => (a.1.offerCopies r).map fun b => (b.1, (if a.2 then 2 ^ j else 0) + b.2)

/-- The registration of CPYB: each descriptor is accepted or dropped, and s[d] gets the mask of those accepted; none where it must wait
(R244). -/
def State.registerOffers (s : State) (d : Reg) (l : List (Nat × Desc)) : Option State :=
  (s.offerCopies l).map fun r => r.1.complete s.who d (BitVec.ofNat 64 r.2) none

/-- CPYB: up to eight descriptors from v[a]; s[d] gets the mask of those accepted (R244). -/
def execCpyb (d a : Reg) (masked : Bool) (mr : BitVec 3) (s : State) : Out :=
  s.copyForm (.cpyb d a masked mr) a.toNat 1 [] [d] fun s =>
    s.copyUses true a.toNat 1 (if masked then [mr] else []) <|
      let offered := (List.range 8).filterMap fun j =>
        if masked && !s.co.mbit mr j then none else some (j, Desc.of (s.co.vread a.toNat (256 * j) 256))
      s.endsHeld (s.setCo (s.co.setPend d)) (.copies d offered) (fun u => (u.registerOffers d offered).isNone) fun u =>
        (u.registerOffers d offered).getD u

/-- The element groups of the destination image that in-bounds elements touch (R243). -/
def imageGroups (d : Desc) : List Nat :=
  (d.elements.flatMap fun e => [e.2.toNat / 256, (e.2.toNat + d.es - 1) / 256]).eraseDups

/-- m0 and vl as LEGACY sets them at issue (R243). -/
def Co.legacyMask (c : Co) (d : Desc) : Co :=
  if !d.legacy || d.ndim != 1 then c
  else
    let n := min (d.count.getD 0 0) 65536
    let f := (d.span 0).1
    let k := (d.span 0).2
    let m := (List.range n).foldl (fun m e => maskPut m e (f ≤ e && e < f + k)) c.m[0]
    let lo := d.start.getD 0 0
    let hi := d.hi.getD 0 0
    let c1 := c.setMask 0 m
    if hi < lo + d.count.getD 0 0 then { c1 with vl := BitVec.ofNat 17 (min c.vl.toNat (hi - lo)) } else c1

/-- CPYVL: into the register image of v[a] to v[a + n]; the groups that receive elements are pending (R243). -/
def execCpyvl (d a b : Reg) (n : BitVec 3) (s : State) : Out :=
  s.copyForm (.cpyvl d a b n) a.toNat (n.toNat + 1) [b] [d] fun s =>
    s.copyUses false a.toNat (n.toNat + 1) [] <| s.access (s.readDesc (s.rd b)) fun t x =>
      let rb := s.co.vbytes
      let size := (n.toNat + 1) * rb
      if x.legacy && s.ext.holds (fun _ => []) [0] then .next s.stall
      else s.copyCommand (t.setCo ((t.co.legacyMask x).setPend d)) d (.described x ⟨1, a.toNat, none, some size⟩)
        (if (t.planCopy 0 d x ⟨1, a.toNat, none, some size⟩).1.status = 2 then []
          else (imageGroups x).map fun g => (a.toNat + 256 * g / rb, 256 * g % rb / 256))

/-- CPYVS: from the register image (R243). -/
def execCpyvs (d a b : Reg) (n : BitVec 3) (s : State) : Out :=
  s.copyForm (.cpyvs d a b n) a.toNat (n.toNat + 1) [b] [d] fun s =>
    s.copyUses true a.toNat (n.toNat + 1) [] <| s.access (s.readDesc (s.rd b)) fun t x =>
      let image := s.co.vread a.toNat 0 ((n.toNat + 1) * s.co.vbytes)
      s.copyCommand (t.setCo (t.co.setPend d)) d (.described x ⟨2, a.toNat, some image, none⟩) []

/-- CPYRR: the first groups of v[a] to v[a + n] to v[c] on of the coroutine s[b] (R245). -/
def execCpyrr (d a b c : Reg) (n : BitVec 3) (s : State) : Out :=
  s.copyForm (.cpyrr d a b c n) a.toNat (n.toNat + 1) [b] [d] fun s =>
    s.copyUses true a.toNat (n.toNat + 1) [] <|
      s.copyCommand (s.setCo (s.co.setPend d)) d (.registers c.toNat (s.co.leadGroups a.toNat (n.toNat + 1)) ((s.rd b).setWidth 32)) []

/-- CPYVG: memory at s[b] to v[a] of every member of g[c] (R245). -/
def execCpyvg (d a b c : Reg) (s : State) : Out :=
  s.copyForm (.cpyvg d a b c) a.toNat 1 [b] [d] fun s =>
    s.copyUses false a.toNat 0 [] <|
      s.copyCommand (s.setCo (s.co.setPend d)) d
        (.group a.toNat s.co.g[c.toNat % 8] (s.rd b) s.co.vl (ceilDiv (s.co.vl.toNat * s.co.width) 8)) []

/-- The open batch sealed: outstanding until every copy in it has completed (R246). -/
def State.sealBatch (s : State) : State :=
  match s.ext.openB with
  | some b => s.setExt { s.ext with openB := none, sealedB := if b.left = 0 then s.ext.sealedB else s.ext.sealedB ++ [b] }
  | none => s

/-- CSEAL: a batch that is not empty is sealed; it stalls where that would make a seventeenth outstanding (R246). -/
def execCseal (s : State) : Out :=
  match s.ext.openB with
  | none => s.ends s
  | some b =>
    if 16 ≤ s.ext.sealedB.length && 0 < b.left then .next s.stall
    else s.endsWith s .seal State.sealBatch

/-! ### XBSWAP (R281 to R283) -/

/-- XBSWAP: exchanges bit q of the rank with bit p of the local index (R281, R282). A lock both as source and as destination
is a destination lock, which stops every access. -/
def execXbswap (d a b c : Reg) (p : BitVec 6) (y : BitVec 7) (s : State) : Out :=
  s.issue [a, b] [d] fun s =>
    let n := c.toNat % 8
    let g := s.co.g[n]
    let rankVa := g.table + BitVec.ofNat 64 (8 * g.rank.toNat)
    if !g.valid then s.trapHere 11 1
    else s.access (s.chunkRead rankVa 8) fun t bs =>
      if leAt bs 0 4 ≠ s.co.cid.toNat then t.trapHere 11 5
      else
        let co := t.co.setPend d
        let co := { co with g := co.g.set n { g with swaps := g.swaps + 1 } }
        s.copyCommand (t.setCo co) d
          (.swap g (s.rd a) (s.rd b).toNat p.toNat (2 ^ (y.extractLsb' 4 3).toNat) (y.extractLsb' 0 4).toNat) []

/-! ### The engine at work (R236 to R240, R245, R281, R310) -/

/-- The space in which a copy of a cluster's engine acts. -/
def Copy.space (c : Copy) (cl : Nat) (w : Work) : Space :=
  { core := none, cl := cl, asid := w.asid, tenant := c.tenant, mode := w.mode }

/-- The members of a group as a table's bytes name them, by rank; a CID that stands there again has its first rank (R267). -/
def tableMembers (b : List Byte) (n : Nat) : List (BitVec 32) := (List.range n).map fun r => BitVec.ofNat 32 (leAt b (8 * r) 4)

/-- The copy with its group's table read: the members that CPYVG delivers to, none for a group register that no GSET has set; or the
partner of an XBSWAP, whose rank has no member where the table names it earlier (R245, R267, R281, R283; DESIGN CHOICE, log 55). -/
def Copy.membersRead (c : Copy) (w : Work) (g : Grp) (b : List Byte) : Copy :=
  let ms := tableMembers b g.size.toNat
  let c := { c with work := some { w with group := none } }
  match c.swap with
  | none => { c with dsts := ms.eraseDups }
  | some x =>
    let r := flipBit g.rank.toNat x.q
    let cid := ms.getD r 0
    if (ms.take r).contains cid then { c with status := 2, swap := none, work := none }
    else { c with swap := some { x with partner := cid } }

/-- An element moved: its bytes with the addresses that it goes to. -/
def Copy.moved (c : Copy) (e : Word × Word × Nat) (bs : List Byte) (ps : List Nat) : Copy :=
  match c.swap with
  | some x =>
    { c with swap := some { x with
      send := x.send ++ [(flipBit e.2.1.toNat x.p, bs)], places := x.places ++ [(e.2.1.toNat, ps)] } }
  | none =>
    if c.kind = 4 then { c with groups := c.groups ++ [(0, e.2.1.toNat / 256, bs)] }
    else
      let ws := ps.zip bs
      { c with writes := c.writes ++ ws, whole := if c.kind = 1 then c.whole else c.whole ++ wholeOf ws, bytes := c.bytes + bs.length }

/-- The copy ends early (R240). -/
def Copy.fails (c : Copy) (e : Ended) : Copy := { c with status := e.1, bad := e.2, work := none }

/-- Where an element goes: offsets in a register image, nowhere for PREF, or addresses. An XBSWAP's incoming one goes where the
outgoing one lies (R282). -/
def State.elementDest (s : State) (cl : Nat) (c : Copy) (w : Work) (e : Word × Word × Nat) : Except Ended (List Nat) :=
  let covers := fun (x : Word) => w.dests.any fun d => (x - d.1).toNat < d.2
  if w.pref then .ok []
  else if w.into then .ok ((List.range e.2.2).map (e.2.1.toNat + ·))
  else s.copyDest (c.space cl w) w.gran covers (if c.swap.isSome then e.1 else e.2.1) e.2.2

/-- What the engine reads of an element. -/
def State.elementRead (s : State) (cl : Nat) (c : Copy) (w : Work) (e : Word × Word × Nat) : Except Ended (Option (List Byte)) :=
  match w.image with
  | some b => .ok (some ((b.drop e.1.toNat).take e.2.2))
  | none => s.copyRead (c.space cl w) w.mem e.1 e.2.2

/-- The pages that an element starts in. -/
def elementPage (e : Word × Word × Nat) : Nat × Nat := (e.1.toNat / 65536, e.2.1.toNat / 65536)

/-- The elements moved in order until one ends the copy, one must wait (R254), or they leave the pages that the engine has reached
(R236, R238, R240). -/
def State.moveElements (s : State) (cl : Nat) (page : Nat × Nat) (w : Work) : List (Word × Word × Nat) → Copy → Copy
  | [], c => { c with work := none }
  | e :: r, c =>
    let rest := { c with work := some { w with todo := e :: r } }
    if elementPage e ≠ page then rest
    else match s.elementRead cl c w e, s.elementDest cl c w e with
      | .error x, _ => c.fails x
      | .ok none, _ => rest
      | .ok (some _), .error x => c.fails x
      | .ok (some bs), .ok ps => s.moveElements cl page w r (c.moved e bs ps)

/-- The next stretch of a copy's work: its group's table, or the elements of the pages that it has reached. -/
def State.workOn (s : State) (cl : Nat) (c : Copy) (w : Work) : Copy :=
  match w.group with
  | some g =>
    if !g.valid then c.membersRead w { g with size := 0 } []
    else match s.copyRead (c.space cl w) w.mem g.table (8 * g.size.toNat) with
      | .error e => { c.fails e with swap := none }
      | .ok none => c
      | .ok (some b) => c.membersRead w g b
  | none => s.moveElements cl ((w.todo.map elementPage).headD (0, 0)) w w.todo c

/-! ### Events of the engine (R238 to R246) -/

/-- A copy of a cluster's engine. -/
def State.copy? (s : State) (cl id : Nat) : Option Copy := (s.cluster cl).copies.find? (·.id == id)

/-- A copy replaced. -/
def State.setCopy (s : State) (cl : Nat) (c : Copy) : State :=
  let k := s.cluster cl
  s.setCluster cl { k with copies := k.copies.map fun x => if x.id = c.id then c else x }

/-- What follows when the engine has moved all that a copy moves: a failure's report, the arrivals, the delivery, the rendezvous or the
completion. -/
def Copy.worked (c : Copy) (cl : Nat) : List Event :=
  let fin := if c.status = 3 ∨ c.status = 4 then Event.copyFaultEnd cl c.id else .copyCompletion cl c.id
  if c.status = 2 ∨ c.status = 5 then [.copyCompletion cl c.id]
  else match c.kind with
    | 1 => ((c.writes.map fun w => w.1 / 256).eraseDups.map fun g => Event.elementGroupArrival cl c.id g) ++ [fin]
    | 3 => [.registerCopyDelivery cl c.id]
    | 4 => if c.status = 0 then [.registerCopyDelivery cl c.id] else [fin]
    | 5 => if c.swap.isSome then [.xbswapRendezvous cl c.id] else [fin]
    | _ => [fin]

/-- The codewords that the elements just moved have read corrected on the way (R365). -/
def State.noteMoved (s : State) (cl : Nat) (c c1 : Copy) : State :=
  match c.work with
  | none => s
  | some w =>
    let left := (c1.work.map (·.todo.length)).getD 0
    (w.todo.take (w.todo.length - left)).foldl (fun s e => match s.translate (c.space cl w) .load e.1 e.2.2 with
      | .ok segs => segs.foldl (fun s g => s.noteReads (segBytes [g])) s
      | .error _ => s) s

/-- The addresses at which the engine's next stretch is translated: the table's, or those of the first element that is left (R310). -/
def Copy.nextVas (w : Work) : List (Word × Nat) :=
  match w.group, w.todo with
  | some g, _ => if g.valid then [(g.table, Nat.max 1 (8 * g.size.toNat))] else []
  | none, e :: _ => (if w.image.isNone then [(e.1, e.2.2)] else []) ++ if w.into || w.pref then [] else [(e.2.1, e.2.2)]
  | none, [] => []

/-- Where the engine's next stretch must wait for the walker (R305, R310). -/
def State.engineWait (s : State) (cl : Nat) (c : Copy) (w : Work) : Option Word :=
  (Copy.nextVas w).findSome? fun x => if isAlias x.1 then none else s.walkWait (c.space cl w) 2 x.1 x.2

/-- The engine asks the walker for a page, or joins the walk of it in progress (R305). -/
def State.engineAsks (s : State) (cl : Nat) (asid : BitVec 14) (va : Word) : State :=
  s.setPkg (cl / 128) ((s.pkg (cl / 128)).ask (.engine cl) asid va)

/-- The engine has met the walks of the pages of a stretch that it has waited for (R305). -/
def State.engineMet (s : State) (cl : Nat) (w : Work) : State :=
  let y := s.pkg (cl / 128)
  let pages := (Copy.nextVas w).flatMap fun x => elementPages w.asid x.1 x.2
  if y.missed = [] then s
  else s.setPkg (cl / 128) { y with missed := y.missed.filter fun m => !(m.1 == .engine cl && pages.contains m.2.1) }

/-- The errors corrected in the tables that a stretch is translated through (R365). -/
def State.noteEngineWalks (s : State) (cl : Nat) (c : Copy) (w : Work) : State :=
  s.noteRuns ((Copy.nextVas w).flatMap fun x => s.walkReads (c.space cl w) x.1)

/-- One stretch of a copy's work, where it has any (R310, R365). -/
def State.stretch (s : State) (cl : Nat) (c : Copy) : State × Copy :=
  match c.work with
  | some w =>
    let c1 := s.workOn cl { c with started := true } w
    (((s.noteEngineWalks cl c w).engineMet cl w).noteMoved cl c c1, c1)
  | none => (s, { c with started := true })

/-- COPY_START: copies start in registration order; each performing moves one stretch, and what is left is moved later
(R238, R305, R310; DEDUCED, log 15). -/
def execCopyStart (cl : Nat) (id : Nat) (s : State) : Out :=
  match s.copy? cl id with
  | none => .next s
  | some c =>
    if ((s.cluster cl).copies.takeWhile (·.id != id)).any (!·.started) then s.again (.copyStart cl id)
    else match c.work.bind fun w => (s.engineWait cl c w).map fun va => (w, va) with
    | some (w, va) => (s.engineAsks cl w.asid va).again (.copyStart cl id)
    | none =>
      let x := s.stretch cl c
      let s1 := x.1.setCopy cl x.2
      if x.2.work.isSome then s1.again (.copyStart cl id) else .next (s1.posts (x.2.worked cl))

/-- COPY_FAULT_END: the engine reports the codeword that ended the copy; what it has written stays (R240, R368). -/
def execCopyFaultEnd (cl : Nat) (id : Nat) (s : State) : Out :=
  match s.copy? cl id with
  | none => .next s
  | some c =>
    let s1 := match c.bad with
      | some pa => s.memoryError (cl / 128) c.tenant 2 pa c.cid
      | none => s
    .next (s1.post (.copyCompletion cl id))

/-- The registers of a coroutine in its core, with those its chunks began with, changed by an arrival. -/
def Core.arrive (c : Core) (f : Co → Co) : Core := { c.starts f with co := f c.co }

/-- Bytes of a register image written at their offsets. -/
def Co.putImage (c : Co) (v : Nat) (l : List (Nat × Byte)) : Co :=
  { c with v := memPuts c.v (l.map fun w => (v * c.vbytes + w.1, w.2)) }

/-- The arrivals of a copy into registers of its issuer: they are discarded where it is gone (R195). -/
def State.arriveImage (s : State) (c : Copy) (l : List (Nat × Byte)) (done : Pend → Bool) : State :=
  let k := s.core c.who.core
  if k.running = some c.who.slot ∧ (k.slot c.who.slot).gen = c.who.gen then
    let k1 := k.arrive fun co => co.putImage c.vreg l
    { s.setCore c.who.core { k1 with ext := { k1.ext with vpend := k1.ext.vpend.filter fun p => !(p.id == c.id && done p) } } with
      stalled := s.stalled.filter (· != c.who.core) }
  else s

/-- ELEMENT_GROUP_ARRIVAL: a group of the destination image is written and no longer pending (R243). -/
def execElementGroupArrival (cl : Nat) (id : Nat) (grp : Nat) (s : State) : Out :=
  match s.copy? cl id with
  | none => .next s
  | some c =>
    let rb := (s.core c.who.core).co.vbytes
    let mine := c.writes.filter fun w => w.1 / 256 == grp
    let s1 := s.setCopy cl { c with writes := c.writes.filter fun w => w.1 / 256 != grp }
    .next (s1.arriveImage c mine fun p => p.reg == c.vreg + 256 * grp / rb && p.grp == 256 * grp % rb / 256)

/-- Writes of an engine performed at one event: memory, good codewords, squashes, watches, planes (R188, R258, R262, R350). -/
def State.engineWrite (s : State) (ws : List (Pa × Byte)) (whole : List (Pa × Word)) : State :=
  let s1 : State := { s with mem := memPuts s.mem ws }
  let lines := (ws.map fun w => lineOf w.1).eraseDups
  let pkgs := (ws.map fun w => paPkg w.1).eraseDups
  let s2 := pkgs.foldl (fun s p => s.healWritten p (ws.map (·.1))) s1
  let s3 := pkgs.foldl (fun s p => s.squashAll p none (lines.filter fun l => l / 2 ^ 39 == p)) s2
  let s4 := pkgs.foldl (fun s p => s.stalePlanes p (lines.map fun l => (l * 128, 128))) s3
  pkgs.foldl (fun s p => s.takeWatches p (whole.filter fun w => paPkg w.1 == p)) s4

/-- One copy fewer in its batch; the coroutine that awaits its batches goes on where few enough remain (R209, R246). -/
def State.batchDone (s : State) (c : Copy) : State :=
  let s1 := s.mapExt c.who fun e => { e with
    openB := e.openB.map fun b => if b.id = c.batch then { b with left := b.left - 1 } else b
    sealedB := (e.sealedB.map fun b => if b.id = c.batch then { b with left := b.left - 1 } else b).filter (0 < ·.left) }
  let k := s1.core c.who.core
  let x := k.slot c.who.slot
  if x.gen ≠ c.who.gen ∨ k.running = some c.who.slot then s1
  else
    let s2 := if x.st = .evicted ∨ x.st = .halted then
        s1.saveMem c.who.core (memPutWord s1.mem (k.saveArea c.who.slot + 0x208) x.ext.batchWord) [] else s1
    match x.wait with
    | .batches n => if x.ext.sealedB.length ≤ n then s2.signalSlot c.who.core c.who.slot else s2
    | _ => s2

/-- A copy's signal: performed at once where the word lies in this package, else sent to its home (R241, R284). -/
def State.copySignal (s : State) (cl : Nat) (c : Copy) : State :=
  if c.status = 2 ∨ c.status = 5 then s
  else
    let x := Sender.unit (cl / 128) c.tenant c.cid
    match c.token with
    | none => s
    | some pa =>
      if paPkg pa = cl / 128 then s.tokenOp x pa fun w => tokSignal w (-(c.bytes : Int))
      else s.post (.tokenSignalAtHome x pa (-(c.bytes : Int)))

/-- The end of a copy after its clip message, in this order: the signal, the register completion, the batch (R241). -/
def State.copyDone (s : State) (cl : Nat) (c : Copy) : State :=
  let k := s.cluster cl
  let s1 := s.setCluster cl { k with copies := k.copies.filter (·.id != c.id) }
  ((s1.copySignal cl c).complete c.who c.reg (completionWord c.status c.bytes) none).batchDone c

/-- The clip message accepted by the issuing core's mailbox, or refused and tried again (R241). -/
def State.clipMessage (s : State) (cl : Nat) (c : Copy) : Out :=
  match c.msg with
  | none => .next (s.copyDone cl c)
  | some m =>
    if 64 ≤ (s.core c.who.core).mailbox.length then s.again (.clipMessageRetry cl c.id)
    else .next ((s.deliver c.who.core ⟨1, c.who.slot, c.cid, c.message m⟩).copyDone cl c)

/-- Writes in order as runs of bytes that lie side by side in one 128-byte line. -/
def lineRuns : List (Pa × Byte) → List (Pa × List Byte)
  | [] => []
  | (pa, b) :: r =>
    match lineRuns r with
    | (q, l) :: t => if q = pa + 1 ∧ lineOf q = lineOf pa then (pa, b :: l) :: t else (pa, [b]) :: (q, l) :: t
    | [] => [(pa, [b])]

/-- A copy's writes to other packages sent, each run of bytes in a line as a posted write of its own: they arrive and are performed
independently (R262). What it writes in its own package stays for its completion. -/
def State.sendAway (s : State) (cl : Nat) (c : Copy) : State :=
  let away := lineRuns (c.writes.filter fun w => paPkg w.1 != cl / 128)
  let posts : List (Nat × Pa × List Byte) := away.zipIdx.map fun x => (s.ids + x.2, x.1)
  let c1 : Copy := { c with
    writes := c.writes.filter fun w => paPkg w.1 == cl / 128, away := posts.map fun (x : Nat × Pa × List Byte) => (x.1, x.2.2.length)
    sent := true }
  { (s.setCopy cl c1) with ids := s.ids + away.length }.posts
    (posts.map fun (x : Nat × Pa × List Byte) => .remoteWriteAtHome c.who x.2.1 x.2.2.length (leNat x.2.2) ⟨c.tenant, x.1, []⟩)

/-- COPY_COMPLETION: what the copy writes to other packages is sent; once every such write is over, those in this package are visible and
the locks are released, in one event; then the signals of R241 (R241, R258, R262). -/
def execCopyCompletion (cl : Nat) (id : Nat) (s : State) : Out :=
  match s.copy? cl id with
  | none => .next s
  | some c =>
    let away := c.kind != 1 && c.writes.any fun w => paPkg w.1 != cl / 128
    if !c.sent && away then (s.sendAway cl c).again (.copyCompletion cl id)
    else if c.away != [] || (c.kind != 1 && c.writes.any fun w => s.homeBusy w.1) then s.again (.copyCompletion cl id)
    else
      let s1 := if c.kind = 1 then s.arriveImage c c.writes fun _ => true
        else if c.writes = [] then s else s.engineWrite c.writes (c.whole.filter fun w => paPkg w.1 == cl / 128)
      let c1 := { c with writes := [], whole := [], landed := true }
      ((s1.setCopy cl c1).releaseLocks (cl / 128) id).clipMessage cl c1

/-- CLIP_MESSAGE_RETRY (R241; DESIGN CHOICE, log 13). -/
def execClipMessageRetry (cl : Nat) (id : Nat) (s : State) : Out :=
  match s.copy? cl id with
  | none => .next s
  | some c => s.clipMessage cl c

/-- A destination coroutine can be delivered to: it runs, or its context is resident and holds every group (R245). -/
def Core.deliverable (k : Core) (slot : Nat) (c : Copy) : Bool :=
  let x := k.slot slot
  let co := if k.running = some slot then k.co else x.co
  let fits := c.groups.all fun g => c.vreg + g.1 < co.nregs && 256 * (g.2.1 + 1) ≤ co.vbytes
  let vlOk := match c.needVl with
    | some n => co.vl == n
    | none => true
  fits && vlOk && c.vreg < co.nregs &&
    (k.running = some slot ||
      ((x.st == .signalled || x.st == .suspended) && !x.inMem &&
        c.groups.all fun g => g.2.2.isEmpty || (co.vlive x.live (c.vreg + g.1) && g.2.1 < co.savedGroups)))

/-- The groups written to a destination coroutine's registers or saved context. -/
def State.deliverGroups (s : State) (g : CoreId) (slot : Nat) (c : Copy) : State :=
  let k := s.core g
  let put := fun (co : Co) => c.groups.foldl (fun co x => co.vwrite (c.vreg + x.1) (256 * x.2.1) x.2.2) co
  if k.running = some slot then s.setCore g (k.arrive put)
  else s.setCore g (k.setSlot slot { k.slot slot with co := put (k.slot slot).co })

/-- REGISTER_COPY_DELIVERY: each destination is delivered to or left untouched (R245). -/
def execRegisterCopyDelivery (cl : Nat) (id : Nat) (s : State) : Out :=
  match s.copy? cl id with
  | none => .next s
  | some c =>
    let one := fun (x : State × Nat × Bool) (cid : BitVec 32) =>
      let g := cidCore cid
      let k := x.1.core g
      let near := c.kind = 4 || pkgOf g == cl / 128
      if near && cid.toNat % 4 == 0 && k.deliverable (cidSlot cid) c then
        (x.1.deliverGroups g (cidSlot cid) c, x.2.1 + (c.groups.map (·.2.2.length)).foldl (· + ·) 0, x.2.2)
      else (x.1, x.2.1, false)
    let r := c.dsts.foldl one (s, 0, true)
    .next ((r.1.setCopy cl { c with bytes := r.2.1, status := if r.2.2 then 0 else 2 }).post (.copyCompletion cl id))

/-- What a member receives, element by element: the partner's elements at its own places. -/
def swapWrites (places : List (Nat × List Pa)) (send : List (Nat × List Byte)) : List (List (Pa × Byte)) :=
  places.map fun x => match send.find? (·.1 == x.1) with
    | some b => x.2.zip b.2
    | none => []

/-- A member's copy with the partner's half as what it writes. A partner that has met a failure on its own side has sent less, and this
member completes with STATUS 2 and the bytes received (DESIGN CHOICE, log 56). -/
def Copy.swapped (c : Copy) (mine theirs : Swap) (partner : Copy) : Copy :=
  let es := swapWrites mine.places theirs.send
  { c with
    writes := es.flatten, whole := es.flatMap wholeOf, bytes := es.flatten.length, swap := none
    status := if c.status = 0 ∧ partner.status ≠ 0 then 2 else c.status }

/-- A member's copy that ends with STATUS 2 and copies nothing. -/
def Copy.unmatched (c : Copy) : Copy := { c with status := 2, bad := none, swap := none }

/-- The matching XBSWAP of the partner, in the partner's cluster (R283). -/
def State.swapPartner (s : State) (w : Swap) : Option (Copy × Swap) :=
  (s.cluster (clusterOf (cidCore w.partner))).copies.findSome? fun x => match x.swap with
    | some v => if v.table = w.table ∧ v.num = w.num ∧ x.cid = w.partner then some (x, v) else none
    | none => none

/-- The registers of the running coroutine as its last commit left them. -/
def Core.committed (c : Core) : Co := (c.waiting.map (·.start)).getD c.chunk.start

/-- The partner's matching XBSWAP has ended by itself, rejected or with STATUS 5: the partner counts as unreachable, so that this member
completes with STATUS 2 and COUNT 0 (R283; DESIGN CHOICE, log 56). -/
def State.swapMissed (s : State) (w : Swap) : Bool :=
  let k := s.core (cidCore w.partner)
  let n := cidSlot w.partner
  let co := if k.running = some n then k.committed else (k.slot n).co
  co.cid == w.partner && co.g.toList.any fun g => g.valid && g.table == w.table && w.num < g.swaps

/-- The partner's package answers over the fabric (R283, R339). -/
def State.partnerUp (s : State) (cl : Nat) (w : Swap) : Bool :=
  let g := cidCore w.partner
  (s.pkg (pkgOf g)).on && s.carriesTo (cl / 128) g

/-- XBSWAP_RENDEZVOUS: where both partners have registered, both take the other's half once it has been read, or both complete with
STATUS 2; a partner whose package does not answer is waited for until its time is over (R282, R283, R339). -/
def execXbswapRendezvous (cl : Nat) (id : Nat) (s : State) : Out :=
  match s.copy? cl id with
  | none => .next s
  | some c =>
    match c.swap with
    | none => .next s
    | some w =>
      if !s.partnerUp cl w then s.again (.xbswapRendezvous cl id)
      else match s.swapPartner w with
      | none =>
        if s.swapMissed w then .next ((s.setCopy cl c.unmatched).post (.copyCompletion cl id))
        else s.again (.xbswapRendezvous cl id)
      | some (x, v) =>
        let cl2 := clusterOf (cidCore w.partner)
        let same := w.m = v.m ∧ w.es = v.es ∧ w.p = v.p ∧ w.q = v.q
        if same ∧ x.work.isSome then s.again (.xbswapRendezvous cl id)
        else
          let c1 := if same then c.swapped w v x else c.unmatched
          let x1 := if same then x.swapped v w c else { x.unmatched with work := none }
          .next (((s.setCopy cl c1).setCopy cl2 x1).posts (c1.worked cl ++ if x.work.isSome then [] else x1.worked cl2))

end Sys2Proof.Machine
end

