-- ==== Sys2Proof/Machine/Sched.lean ====
section
/-!
DEFINITION. Stopping, resuming and ending coroutines: YIELD, quantum expiry, CORE_RESUME, the spillway's events, EXIT, the
quiescence watchdog (R201, R204 to R210, R215, R221).
-/

namespace Sys2Proof.Machine

/-! ### YIELD and quantum expiry (R205) -/

/-- The class of the running coroutine as its header held it at its resume: a write to prio takes effect at its next stop (R206). -/
def Core.classNow (c : Core) : BitVec 2 := (c.slot (c.running.getD 0)).co.cls

/-- Another coroutine of the same or a higher class is signalled or refilling. -/
def Core.contended (c : Core) : Bool :=
  c.slots.any fun x => (x.2.st == .signalled || x.2.st == .refilling) && c.classNow.toNat ≤ x.2.co.cls.toNat

/-- YIELD: on with the successor, or a full context saved and the coroutine at the back of its class (R205). -/
def execYield (s : State) : Out :=
  s.awaiting fun t =>
    if !t.cur.contended then .next t.settle
    else if !t.cur.settled then .next t.holdOn
    else .next (t.retire.stop s.focus true 0 .signalled .nothing s.co.pc)

/-- QUANTUM_EXPIRY: an implicit YIELD at the instruction boundary, or between two groups of a VISSUE, or the count restarts (R165,
R205). -/
def execQuantumExpiry (g : CoreId) (s : State) : Out :=
  let c := s.core g
  let s1 := { s with focus := g }
  if c.running.isNone || c.co.cont != 0 || c.co.quantum == 0 || c.ext.chunks < c.co.quantum.toNat then .next s
  else if !c.contended then .next (s1.setExt { c.ext with chunks := 0 })
  else if !c.settled then .next s1.stall
  else match s1.commit g with
    | none => .next (s1.notYet s1)
    | some t => .next (t.stop g true 0 .signalled .nothing c.co.pc)

/-! ### Resuming (R206, R208, R210) -/

/-- The signalled slot that is resumed first: the highest class, then the front of its order (R206). -/
def Core.nextSlot (c : Core) : Option Nat :=
  match c.slots.filter fun x => x.2.st == .signalled with
  | [] => none
  | x :: r =>
    some (r.foldl (fun b y =>
      if b.2.co.cls.toNat < y.2.co.cls.toNat ∨ (y.2.co.cls = b.2.co.cls ∧ y.2.turn < b.2.turn) then y else b) x).1

/-- A context whose restore meets an uncorrectable error: the slot is halted, its slot record written, with a memory error
record and a halt record (R202, R366, R368; DEDUCED, log 45). -/
def State.haltSlot (s : State) (g : CoreId) (k : Nat) (bad : Option Pa) : State :=
  let c := s.core g
  let x := c.slot k
  let a := c.saveArea k + 0x140
  let s0 := match bad with
    | some pa => s.memoryError (pkgOf g) x.co.tenant 2 pa x.co.cid
    | none => s.errorRecord (pkgOf g) x.co.tenant 2 (Config.cacheErrorAddress g k) x.co.cid 8
  let s1 := (s0.setCore g (c.setSlot k { x with st := .halted, wait := .nothing, cacheError := false })).saveMem g
    (memPutWords s0.mem a (x.co.record x.ext.saved true false false)) [(a, 0xD0)]
  s1.record (pkgOf g) x.co.tenant [2, x.co.cid.setWidth 64, 8, x.co.pc, 0, x.co.tvec]

/-- The loop state of a saved PC as it stands at the await's own head, one place back (R106, R210). -/
def rewindLoop (l : Word) (frozen : Bool) (pc head : Word) : Word :=
  if lDepth l = 0 ∨ frozen then l
  else moveLstate l (head - pc) (if lPos l = 0 then lBody l - 1 else lPos l - 1)

/-- The trap that a resume takes after its restore: the overrun check of a count waiter, an error at the token word, the
mark of a failed load (R97, R210, R233, R380). The flag says that it is taken at the await's own head. -/
def State.resumeTrap (s : State) (g : CoreId) (x : Slot) (co : Co) : Option (Trap × Bool) :=
  match x.wait with
  | .count pa _ va =>
    if s.failing pa then some (⟨8, va, 0, some pa⟩, true)
    else if tokOverrun (memWord s.mem pa) then some (⟨10, BitVec.ofNat 64 pa, 0, none⟩, true) else none
  | .cell n =>
    if tokOverrun (memWord s.mem (cellPa g n)) then some (⟨10, BitVec.ofNat 64 n, 0, none⟩, true) else none
  | .failed va => some (⟨8, va, 0, none⟩, true)
  | .register r =>
    match co.mark r with
    | some ea => some (⟨8, ea, 0, none⟩, false)
    | none => none
  | _ => none

/-- The coroutine of a slot runs: its registers come back from the context cache or the save area, and the trap that
follows is taken (R206, R208). -/
def State.resume (s : State) (g : CoreId) (k : Nat) : State :=
  let c := s.core g
  let x := c.slot k
  match s.restoreError g k x.inMem with
  | some bad => (s.haltSlot g k bad).post (.coreResume g)
  | none =>
    let co := if x.inMem then readContext s.mem (c.saveArea k) x.co else x.co
    let trap := s.resumeTrap g x co
    let back := match trap with
      | some (_, true) => true
      | _ => false
    let co := match x.wait with
      | .register r => { co with marks := Tab.del co.marks r.toNat }
      | _ => co
    let co := if back then { co with lstate := rewindLoop co.lstate co.lfrz co.pc x.head, pc := x.head } else co
    let c' := { c.setSlot k { x with st := .running, wait := .nothing, inMem := false } with
      co := co, ext := x.ext, chunk := Chunk.fresh co, running := some k, line := none, quiet := false, quietAt := none }
    let s := if x.inMem then s.noteRuns (x.co.contextRuns (c.saveArea k) x.full x.live) else s
    let s1 := { (s.setCore g c').kickRefill g with focus := g }
    match trap with
    | some (t, _) => s1.takeTrap t co.pc
    | none => s1

/-- CORE_RESUME: a core without a running coroutine resumes the next one (R206). -/
def execCoreResume (g : CoreId) (s : State) : Out :=
  let c := s.core g
  if c.running.isSome || !(s.pkg (pkgOf g)).live then .next s
  else match c.nextSlot with
    | some k => .next (s.resume g k)
    | none => .next s

/-! ### The spillway (R201) -/

/-- SPILL_COMPLETE: a context written out has left the spillway. -/
def execSpillComplete (g : CoreId) (s : State) : Out :=
  let c := s.core g
  .next ((s.setCore g { c with spilling := c.spilling.drop 1 }).kickRefill g)

/-- The refill of a slot is over: it is signalled, its context in the cache or left in the save area (R201). -/
def State.refilled (s : State) (g : CoreId) (k : Nat) (inMem : Bool) : State :=
  let c := s.core g
  let x := c.slot k
  let co := if inMem then x.co else readContext s.mem (c.saveArea k) x.co
  let c' := (c.setSlot k { x with st := .signalled, co := co, inMem := inMem, stamp := s.elapsed }).count 5 1 none
  let s := if inMem then s else s.noteRuns (x.co.contextRuns (c.saveArea k) x.full x.live)
  ((s.setCore g { c' with refills := c.refills.filter (· != k) }).kickRefill g).post (.coreResume g)

/-- A context that the cache cannot hold at all (R201). -/
def Slot.tooLarge (x : Slot) : Bool := x.full || 196608 < x.size

/-- The refill of a slot can go on now: it needs no room, or there is room, or a suspended context can make some (R201). -/
def Core.refillable (c : Core) (k : Nat) : Bool :=
  let x := c.slot k
  x.st != .refilling || x.tooLarge || c.cacheUsed + ceilDiv x.size 64 * 64 ≤ 196608 || (c.victim false).isSome

/-- CONTEXT_REFILL_DONE: the first refill that can go on ends, behind the spills in progress; one that needs room in the cache makes it
by spilling suspended contexts, and one that lacks room holds up no other (R201, R366). -/
def execContextRefillDone (g : CoreId) (s : State) : Out :=
  let c := s.core g
  match c.refills.find? c.refillable with
  | none => .next s
  | some k =>
    let x := c.slot k
    let rest := c.refills.filter (· != k)
    if x.st != .refilling then .next ((s.setCore g { c with refills := rest }).kickRefill g)
    else if c.spilling != [] then .next s
    else if x.tooLarge then .next (s.refilled g k true)
    else match s.restoreError g k true with
    | some bad => .next (((s.setCore g { c with refills := rest }).haltSlot g k bad).kickRefill g)
    | none =>
      let size := ceilDiv x.size 64 * 64
      if c.cacheUsed + size ≤ 196608 then .next (s.refilled g k false)
      else .next (s.makeRoom g size false 256)

/-! ### EXIT (R215) -/

/-- The pod physical address of DONE, where its signal can be made: translated in the mode in which the coroutine exits (DESIGN CHOICE,
log 51); with what the translation has counted, and the record of an error that it has met (R76, R365, R366). -/
def State.doneTarget (s : State) : State × Option Pa :=
  match s.wordTarget .store false s.co.done with
  | .ok t pa => (t, some pa)
  | .trap t x =>
    let u := s.counted t
    (match x.bad with
      | some pa => u.memoryError (pkgOf s.focus) s.co.tenant 2 pa s.co.cid
      | none => u, none)
  | _ => (s, none)

/-- The coroutine in focus is gone: its signals are sent, each a release, and its slot is free (R215, R264). -/
def State.leave (s : State) (own : Option Pa) : State :=
  let g := s.focus
  let c := s.co
  let k := s.cur.running.getD 0
  let s1 := match own with
    | some pa => s.post (.tokenSignalAtHome s.sender pa (-1))
    | none => s
  let s2 := if c.done = 0 then s1
    else match s1.doneTarget with
      | (t, some pa) => t.post (.tokenSignalAtHome s.sender pa (-1))
      | (t, none) => t.record (pkgOf g) c.tenant [6, c.cid.setWidth 64, c.done, c.asid.setWidth 64]
  let s3 := (s2.setCur { s2.cur with running := none, prefetch := [] }).freeSlot g k
  s3.post (.coreResume g)

/-- The translation of DONE waits for the walker (R305). -/
def State.doneWaits (s : State) : Bool := s.co.done != 0 && s.co.done.toNat % 8 == 0 && s.mustWalk s.space s.co.done

/-- EXIT: the signals of s[d] and DONE are releases; then the slot is free (R215, R264). -/
def execExit (d : Reg) (s : State) : Out :=
  s.issue [d] [] fun s =>
    if !s.cur.vq.isEmpty then .next s.stall
    else if s.doneWaits then .next (s.awaitWalk s.co.asid s.co.done)
    else
      let go := fun (t : State) (own : Option Pa) =>
        match t.ownCommit with
        | none => Host.Outcome.next (s.notYet t)
        | some u => .next (u.leave own)
      if d = 0 then go s none
      else s.access (s.wordTarget .store false (s.rd d)) fun t pa => go t (some pa)

/-! ### The quiescence watchdog (R221) -/

/-- The kind and value that a quiescence record shows of a wait. -/
def Wait.shown (x : Wait) : Nat × Nat :=
  match x with
  | .register r => (0, r.toNat)
  | .count pa _ _ => (1, pa)
  | .generation pa _ _ => (2, pa)
  | .batches n => (3, n)
  | .cell n => (4, n)
  | .highWater pa _ _ => (5, pa)
  | _ => (0, 0)

/-- The slots that wait. -/
def Core.waiters (c : Core) : List (Nat × Slot) := c.slots.filter fun x => x.2.st == .suspended || x.2.st == .spilled

/-- No slot runs or is runnable, and one waits. -/
def Core.isQuiet (c : Core) : Bool :=
  c.running.isNone && !(c.slots.any fun x => x.2.st == .signalled || x.2.st == .refilling) && c.waiters != []

/-- A core n cycles later, at a time: event 15 counts them where it is selected (R76, R377), and a core that is quiet remembers since
when (R221). -/
def Core.passing (c : Core) (n now : Nat) : Core :=
  let c := if c.pmcsel.any (fun p => p.toNat % 256 == 15) then c.countRun 15 n else c
  if c.isQuiet then
    if c.quietAt.isSome then c else { c with quietAt := some now }
  else if c.quietAt.isSome then { c with quietAt := none }
  else c

/-- Core cycles pass. -/
def State.pass (s : State) (n : Nat) : State :=
  { s with elapsed := s.elapsed + n, cores := s.cores.map fun x => (x.1, x.2.passing n s.elapsed) }

/-- The core has been quiet for the watchdog's interval (R221). -/
def State.quietLong (s : State) (c : Core) : Bool :=
  match c.quietAt with
  | some t => c.wdog.toNat ≤ s.elapsed - t
  | none => false

/-- QUIESCENCE_WATCHDOG: the interval of a quiet core has passed; one record, until a slot has been resumed (R221). -/
def execQuiescenceWatchdog (g : CoreId) (s : State) : Out :=
  let c := s.core g
  if !c.isQuiet || c.quiet || c.wdog == 0 || !s.quietLong c then .next s
  else
    let w := c.waiters
    let t := ((w.headD (0, Slot.reset)).2).co.tenant
    let entries := (w.take 8).flatMap fun x =>
      [BitVec.ofNat 64 ((mkCid g x.1).toNat + x.2.wait.shown.1 * 2 ^ 32), BitVec.ofNat 64 x.2.wait.shown.2]
    .next ((s.setCore g { c with quiet := true }).record (pkgOf g) t
      ([1, (mkCid g 0).setWidth 64, BitVec.ofNat 64 w.length, BitVec.ofNat 64 (s.cycles g), 0, 0, 0, 0] ++ entries))

end Sys2Proof.Machine
end

