-- ==== Sys2Proof/Machine/VArith.lean ====
section
/-!
DEFINITION. VINT, VFP, VCVT and VCMP (R120 to R125).
-/

namespace Sys2Proof.Machine

/-! ### VINT (R120) -/

/-- An element as the number it stands for. -/
def ival (signedly : Bool) (w x : Nat) : Int := if signedly then signed w x else x

/-- The last source of an integer instruction at an element (R80). -/
def intSource (o : V32) (shift : Bool) (w : Nat) (b : Word) (c : Co) (i : Nat) : Nat :=
  if o.x = 0 then c.elem o.b.toNat w i
  else if o.x = 1 then b.toNat % 2 ^ w
  else if shift then o.b.toNat
  else wrap w o.imm

/-- An integer instruction: f takes whether the type is signed, the width and the two elements. -/
def vint (o : V32) (shift : Bool) (f : Bool → Nat → Nat → Nat → Nat) : VSem :=
  let w := tyWidth o.t.toNat
  VSem.map o o.sameWidth o.ssrc ((o.a, fun _ => w) :: o.vsrc.map fun r => (r, fun _ => w)) (fun _ => w)
    fun _ b c i => (f (o.t.toNat < 4) w (c.elem o.a.toNat w i) (intSource o shift w b c i), 0)

/-- VADD (R120). -/
def vaddSem (o : V32) : VSem := vint o false fun _ w a b => (a + b) % 2 ^ w
/-- VSUB (R120). -/
def vsubSem (o : V32) : VSem := vint o false fun _ w a b => wrap w (a - b)
/-- VMUL (R120). -/
def vmulSem (o : V32) : VSem := vint o false fun _ w a b => a * b % 2 ^ w
/-- VMULH (R120). -/
def vmulhSem (o : V32) : VSem := vint o false fun g w a b => wrap w (ival g w a * ival g w b / (2 ^ w : Nat))
/-- VDIV (R36, R120). -/
def vdivSem (o : V32) : VSem := vint o false fun g w a b => if g then divSigned w a b else divUnsigned w a b
/-- VREM (R36, R120). -/
def vremSem (o : V32) : VSem := vint o false fun g w a b => if g then remSigned w a b else remUnsigned w a b
/-- VAND (R120). -/
def vandSem (o : V32) : VSem := vint o false fun _ _ a b => Nat.land a b
/-- VOR (R120). -/
def vorSem (o : V32) : VSem := vint o false fun _ _ a b => Nat.lor a b
/-- VXOR (R120). -/
def vxorSem (o : V32) : VSem := vint o false fun _ _ a b => Nat.xor a b
/-- VSHL (R120). -/
def vshlSem (o : V32) : VSem := vint o true fun _ w a b => a * 2 ^ (b % w) % 2 ^ w
/-- VSHR (R120). -/
def vshrSem (o : V32) : VSem := vint o true fun _ w a b => a / 2 ^ (b % w)
/-- VSRA (R120). -/
def vsraSem (o : V32) : VSem := vint o true fun _ w a b => wrap w (signed w a / (2 ^ (b % w) : Nat))
/-- VMIN (R120). -/
def vminSem (o : V32) : VSem := vint o false fun g w a b => if ival g w a ≤ ival g w b then a else b
/-- VMAX (R120). -/
def vmaxSem (o : V32) : VSem := vint o false fun g w a b => if ival g w a ≤ ival g w b then b else a
/-- VSADD (R36, R120). -/
def vsaddSem (o : V32) : VSem := vint o false fun g w a b => clamp g w (ival g w a + ival g w b)
/-- VSSUB (R36, R120). -/
def vssubSem (o : V32) : VSem := vint o false fun g w a b => clamp g w (ival g w a - ival g w b)

/-- VADD (R120). -/
def execVadd (o : V32) (s : State) : Out := s.vector (.vadd o) o.a o.b (vaddSem o)
/-- VSUB (R120). -/
def execVsub (o : V32) (s : State) : Out := s.vector (.vsub o) o.a o.b (vsubSem o)
/-- VMUL (R120). -/
def execVmul (o : V32) (s : State) : Out := s.vector (.vmul o) o.a o.b (vmulSem o)
/-- VMULH (R120). -/
def execVmulh (o : V32) (s : State) : Out := s.vector (.vmulh o) o.a o.b (vmulhSem o)
/-- VDIV (R120). -/
def execVdiv (o : V32) (s : State) : Out := s.vector (.vdiv o) o.a o.b (vdivSem o)
/-- VREM (R120). -/
def execVrem (o : V32) (s : State) : Out := s.vector (.vrem o) o.a o.b (vremSem o)
/-- VAND (R120). -/
def execVand (o : V32) (s : State) : Out := s.vector (.vand o) o.a o.b (vandSem o)
/-- VOR (R120). -/
def execVor (o : V32) (s : State) : Out := s.vector (.vor o) o.a o.b (vorSem o)
/-- VXOR (R120). -/
def execVxor (o : V32) (s : State) : Out := s.vector (.vxor o) o.a o.b (vxorSem o)
/-- VSHL (R120). -/
def execVshl (o : V32) (s : State) : Out := s.vector (.vshl o) o.a o.b (vshlSem o)
/-- VSHR (R120). -/
def execVshr (o : V32) (s : State) : Out := s.vector (.vshr o) o.a o.b (vshrSem o)
/-- VSRA (R120). -/
def execVsra (o : V32) (s : State) : Out := s.vector (.vsra o) o.a o.b (vsraSem o)
/-- VMIN (R120). -/
def execVmin (o : V32) (s : State) : Out := s.vector (.vmin o) o.a o.b (vminSem o)
/-- VMAX (R120). -/
def execVmax (o : V32) (s : State) : Out := s.vector (.vmax o) o.a o.b (vmaxSem o)
/-- VSADD (R120). -/
def execVsadd (o : V32) (s : State) : Out := s.vector (.vsadd o) o.a o.b (vsaddSem o)
/-- VSSUB (R120). -/
def execVssub (o : V32) (s : State) : Out := s.vector (.vssub o) o.a o.b (vssubSem o)

/-! ### VFP (R121, R122, R56 to R58) -/

/-- The parts of an element: the value, or the real and the imaginary part of a c32 (R41). -/
def parts (t x : Nat) : List FV :=
  if t = 14 then [(fmtOf 14).value (x % 2 ^ 32), (fmtOf 14).value (x / 2 ^ 32)] else [(fmtOf t).value x]

/-- Parts put together again, with their flags. -/
def joinParts : List (Nat × BitVec 5) → Nat × BitVec 5
  | [] => (0, 0)
  | [x] => x
  | x :: y :: _ => (x.1 + y.1 * 2 ^ 32, x.2 ||| y.2)

/-- The last source of a floating-point instruction at an element, in parts: an immediate is converted exactly (R80). -/
def fpSource (o : V32) (t : Nat) (b : Word) (c : Co) (i : Nat) : List FV :=
  if o.x = 0 then parts t (c.elem o.b.toNat (tyWidth t) i)
  else if o.x = 1 then parts t (b.toNat % 2 ^ tyWidth t)
  else if t = 14 then [FV.ofInt o.imm, .fin false 0 0]
  else [FV.ofInt o.imm]

/-- A floating-point instruction: f takes the rounding of the element, the format and the sources in parts, and gives each part. -/
def vfp (o : V32) (rs srcs : List Reg) (f : Rnd → Fmt → List FV → List FV → List FV → List (Nat × BitVec 5)) : VSem :=
  let t := o.t.toNat
  let w := tyWidth t
  VSem.map o o.sameWidth rs (srcs.map fun r => (r, fun _ => w)) (fun _ => w)
    fun _ b c i => joinParts (f (c.rnd o.rm.toNat i) (fmtOf t) (parts t (c.elem o.a.toNat w i)) (fpSource o t b c i)
      (parts t (c.elem o.c.toNat w i)))

/-- A form with two sources: each part rounded once. -/
def vfp2 (o : V32) (f : Rnd → FV → FV → Ex × BitVec 5) : VSem :=
  vfp o o.ssrc (o.a :: o.vsrc) fun r m x y _ => (x.zip y).map fun p =>
    let e := f r p.1 p.2
    m.round r e.1 e.2

/-- A form with one source. -/
def vfp1 (o : V32) (f : Rnd → Fmt → FV → Nat × BitVec 5) : VSem :=
  vfp o [] [o.a] fun r m x _ _ => x.map (f r m)

/-- The exact real and imaginary parts of (ar + i·ai)(br + i·bi), or the product of two plain values (R122). -/
def productParts (rm : Nat) : List FV → List FV → List (FV × BitVec 5)
  | [ar, ai], [br, bi] =>
    let rr := ar.mul br
    let ii := ai.mul bi
    let ri := ar.mul bi
    let ir := ai.mul br
    let re := FV.add rm rr.1 ii.1.neg
    let im := FV.add rm ri.1 ir.1
    [(re.1, rr.2 ||| ii.2 ||| re.2), (im.1, ri.2 ||| ir.2 ||| im.2)]
  | [a], [b] => [a.mul b]
  | _, _ => []

/-- The fused forms: the product, negated or not, plus the addend, negated or not, rounded once (R121, R122). -/
def vfused (o : V32) (negProduct negAddend : Bool) : VSem :=
  vfp o [] [o.a, o.b, o.c] fun r m x y z =>
    ((productParts r.rm x y).zip z).map fun p =>
      let q := if negProduct then p.1.1.neg else p.1.1
      let e := FV.add r.rm q (if negAddend then p.2.neg else p.2)
      m.round r (.val e.1) (p.1.2 ||| e.2)

/-- The absolute value (R121). -/
def FV.abs : FV → FV
  | .nan s => .nan s
  | .inf _ => .inf false
  | .fin _ m e => .fin false m e

/-- The complete result that VFRCP or VFRSQ gives, as a value (R56, R58). -/
def approxValue (m : Fmt) (x : Ex × BitVec 5) : FV := (m.value (m.roundAt m.approx rne x.1 0).1).plain

/-- VFADD (R121). -/
def vfaddSem (o : V32) : VSem := vfp2 o fun r x y => (.val (x.add r.rm y).1, (x.add r.rm y).2)
/-- VFSUB (R121). -/
def vfsubSem (o : V32) : VSem := vfp2 o fun r x y => (.val (x.add r.rm y.neg).1, (x.add r.rm y.neg).2)
/-- VFMUL (R121, R122). -/
def vfmulSem (o : V32) : VSem :=
  vfp o o.ssrc (o.a :: o.vsrc) fun r m x y _ => (productParts r.rm x y).map fun p => m.round r (.val p.1) p.2
/-- VFDIV (R91, R121). -/
def vfdivSem (o : V32) : VSem := vfp2 o fun _ x y => x.div y
/-- VFSQRT (R91, R121). -/
def vfsqrtSem (o : V32) : VSem := vfp1 o fun r m x => m.round r x.sqrt.1 x.sqrt.2
/-- VFMIN (R51, R121). -/
def vfminSem (o : V32) : VSem := vfp2 o fun _ x y => (.val (FV.pick false x y).1, (FV.pick false x y).2)
/-- VFMAX (R51, R121). -/
def vfmaxSem (o : V32) : VSem := vfp2 o fun _ x y => (.val (FV.pick true x y).1, (FV.pick true x y).2)
/-- VFABS (R121). -/
def vfabsSem (o : V32) : VSem := vfp1 o fun r m x => m.round r (.val x.abs) (nvIf x.isSig)
/-- VFFMA (R121, R122). -/
def vffmaSem (o : V32) : VSem := vfused o false false
/-- VFFMS (R121, R122). -/
def vffmsSem (o : V32) : VSem := vfused o false true
/-- VFNMA (R121, R122). -/
def vfnmaSem (o : V32) : VSem := vfused o true false
/-- VFRCP (R56, R57). -/
def vfrcpSem (o : V32) : VSem := vfp1 o fun _ m x => m.roundAt m.approx rne x.recip.1 x.recip.2
/-- VFRSQ (R56, R57). -/
def vfrsqSem (o : V32) : VSem := vfp1 o fun _ m x => m.roundAt m.approx rne x.rootRecip.1 x.rootRecip.2
/-- VFRCPS (R58). -/
def vfrcpsSem (o : V32) : VSem :=
  vfp o [] [o.a, o.b] fun r m x y _ => (x.zip y).map fun p =>
    let e := recipStep r.rm p.1 p.2 (approxValue m p.1.recip)
    m.round r (.val e.1) e.2
/-- VFRSQS (R58). -/
def vfrsqsSem (o : V32) : VSem :=
  vfp o [] [o.a, o.b] fun r m x y _ => (x.zip y).map fun p =>
    let e := rootStep r.rm p.1 p.2 (approxValue m p.1.rootRecip)
    m.round r (.val e.1) e.2
/-- VFEXP2 (R121). -/
def vfexp2Sem (o : V32) : VSem := vfp1 o fun _ m x => m.roundAt m.approx rne x.exp2.1 x.exp2.2

/-- VFADD (R121). -/
def execVfadd (o : V32) (s : State) : Out := s.vector (.vfadd o) o.a o.b (vfaddSem o)
/-- VFSUB (R121). -/
def execVfsub (o : V32) (s : State) : Out := s.vector (.vfsub o) o.a o.b (vfsubSem o)
/-- VFMUL (R121). -/
def execVfmul (o : V32) (s : State) : Out := s.vector (.vfmul o) o.a o.b (vfmulSem o)
/-- VFDIV (R121). -/
def execVfdiv (o : V32) (s : State) : Out := s.vector (.vfdiv o) o.a o.b (vfdivSem o)
/-- VFSQRT (R121). -/
def execVfsqrt (o : V32) (s : State) : Out := s.vector (.vfsqrt o) o.a o.b (vfsqrtSem o)
/-- VFMIN (R121). -/
def execVfmin (o : V32) (s : State) : Out := s.vector (.vfmin o) o.a o.b (vfminSem o)
/-- VFMAX (R121). -/
def execVfmax (o : V32) (s : State) : Out := s.vector (.vfmax o) o.a o.b (vfmaxSem o)
/-- VFABS (R121). -/
def execVfabs (o : V32) (s : State) : Out := s.vector (.vfabs o) o.a o.b (vfabsSem o)
/-- VFFMA (R121). -/
def execVffma (o : V32) (s : State) : Out := s.vector (.vffma o) o.a o.b (vffmaSem o)
/-- VFFMS (R121). -/
def execVffms (o : V32) (s : State) : Out := s.vector (.vffms o) o.a o.b (vffmsSem o)
/-- VFNMA (R121). -/
def execVfnma (o : V32) (s : State) : Out := s.vector (.vfnma o) o.a o.b (vfnmaSem o)
/-- VFRCP (R56). -/
def execVfrcp (o : V32) (s : State) : Out := s.vector (.vfrcp o) o.a o.b (vfrcpSem o)
/-- VFRSQ (R56). -/
def execVfrsq (o : V32) (s : State) : Out := s.vector (.vfrsq o) o.a o.b (vfrsqSem o)
/-- VFRCPS (R58). -/
def execVfrcps (o : V32) (s : State) : Out := s.vector (.vfrcps o) o.a o.b (vfrcpsSem o)
/-- VFRSQS (R58). -/
def execVfrsqs (o : V32) (s : State) : Out := s.vector (.vfrsqs o) o.a o.b (vfrsqsSem o)
/-- VFEXP2 (R121). -/
def execVfexp2 (o : V32) (s : State) : Out := s.vector (.vfexp2 o) o.a o.b (vfexp2Sem o)

/-! ### VCVT, VCVTS, VQBLK (R123, R124) -/

/-- An integer type code (R35). -/
def isInt (t : Nat) : Bool := t < 8

/-- An element converted from type ts to type td (R37, R50, R123); saturating by name where sat is set. -/
def convertElem (sat : Bool) (ts td : Nat) (r : Rnd) (x : Nat) : Nat × BitVec 5 :=
  if isInt ts then
    let v := ival (ts < 4) (tyWidth ts) x
    if isInt td then (if sat then clamp (td < 4) (tyWidth td) v else wrap (tyWidth td) v, 0)
    else (fmtOf td).round r (.val (FV.ofInt v)) 0
  else if isInt td then ((fmtOf ts).value x).toInt r (td < 4) (tyWidth td)
  else
    let m := fmtOf td
    joinParts ((parts ts x).map fun v =>
      let y := m.round r (.val v) (nvIf v.isSig)
      if sat && y.2 &&& fOF != 0 then (m.maxCode + m.signBit v.isNeg, y.2) else y)

/-- VCVT and VCVTS (R117, R123). -/
def vconvert (sat : Bool) (o : V32) : VSem :=
  let td := o.t.toNat
  VSem.map o
    (fun c => ((vtTy c.vtype == 14) == (td == 14)) && (c.width == tyWidth td || o.d != o.a) &&
      c.vl.toNat ≤ vlmaxW (tyWidth td) c.nregs)
    [] [(o.a, Co.width)] (fun _ => tyWidth td)
    fun _ _ c i => convertElem sat (vtTy c.vtype) td (c.rnd o.rm.toNat i) (c.elem o.a.toNat c.width i)

/-- The scale of a block of values and NV where one is a NaN or an infinity (R44). -/
def qblkScale (xs : List FV) : Nat × BitVec 5 :=
  let special := xs.any fun x => match x with
    | .fin _ _ _ => false
    | _ => true
  if special then (255, fNV)
  else
    let logs := xs.filterMap fun x => match x with
      | .fin _ m e => if m = 0 then none else some ((Nat.log2 m : Int) + e)
      | _ => none
    match logs with
    | [] => (0, 0)
    | l :: r => ((max 0 (min 254 (r.foldl max l + 125))).toNat, 0)

/-- m x 2^q lies beyond 6. -/
def beyondSix (m : Nat) (q : Int) : Bool := 6 * 2 ^ (-q).toNat < m * 2 ^ q.toNat

/-- An f4 element under a block's scale: a scaled magnitude beyond 6 saturates, whatever the rounding (R44). -/
def qblkElem (e : Nat) (r : Rnd) (x : FV) : Nat × BitVec 5 :=
  if e = 255 then (0, 0)
  else match x with
    | .fin n m k =>
      let q := k - ((e : Int) - 127)
      if beyondSix m q then (if n then 15 else 7, fOF ||| fNX) else (fmtOf 8).round r (.val (.fin n m q)) 0
    | _ => (0, 0)

/-- The blocks of sixteen that hold an active element, each with its active elements (R124). -/
def qblkBlocks (act : List Nat) : List (Nat × List Nat) :=
  (act.map (· / 16)).eraseDups.map fun k => (k, act.filter fun i => i / 16 == k)

/-- VQBLK (R117, R124): the elements to v[D], the scales to vsc, v7. -/
def vqblkSem (o : V32) : VSem where
  ok := fun c => (vtTy c.vtype == 12 || vtTy c.vtype == 11 || vtTy c.vtype == 10) && o.a != 7 && o.d != o.a && c.regsOk [o.d, o.a]
  rs := []
  dst := none
  vsrc := [o.a]
  msrc := o.mask
  touch := fun _ _ c grp => (c.active grp o).flatMap fun i =>
    [groupAt 4 o.d i, groupAt c.width o.a i, groupAt 8 7 (i / 16)]
  masks := o.mask
  run := fun _ _ grp c =>
    let val := fun i => (fmtOf (vtTy c.vtype)).value (c.elem o.a.toNat c.width i)
    let c' := (qblkBlocks (c.active grp o)).foldl (fun c' b =>
      let e := qblkScale (b.2.map val)
      ((c'.vput 7 8 [(b.1, e)]).vput o.d.toNat 4 (b.2.map fun i => (i, qblkElem e.1 (c.rnd o.rm.toNat i) (val i))))) c
    (c', 0)

/-- VCVT (R123). -/
def execVcvt (o : V32) (s : State) : Out := s.vector (.vcvt o) o.a o.b (vconvert false o)
/-- VCVTS (R123). -/
def execVcvts (o : V32) (s : State) : Out := s.vector (.vcvts o) o.a o.b (vconvert true o)
/-- VQBLK (R124). -/
def execVqblk (o : V32) (s : State) : Out := s.vector (.vqblk o) o.a o.b (vqblkSem o)

/-! ### VCMP (R125) -/

/-- A comparison: f gives bit i and its flags; each bit's activity is decided from the old mask (R116, R125). -/
def vcompare (o : V32) (f : Word → Co → Nat → Bool × BitVec 5) : VSem :=
  let w := tyWidth o.t.toNat
  { ok := fun c => o.sameWidth c && c.regsOk (o.a :: o.vsrc)
    rs := o.ssrc
    dst := none
    vsrc := o.a :: o.vsrc
    msrc := o.mask
    touch := fun _ _ c grp => (c.active grp o).flatMap fun i => (o.a :: o.vsrc).map fun r => groupAt w r i
    masks := o.md :: o.mask
    run := fun _ b grp c =>
      let r := (c.active grp o).map fun i => (i, f b c i)
      ((c.mput o.md (r.map fun x => (x.1, x.2.1))).orFlags (r.foldl (fun g x => g ||| x.2.2) 0), 0) }

/-- An integer comparison. -/
def vicmp (o : V32) (f : Int → Int → Bool) : VSem :=
  let w := tyWidth o.t.toNat
  let g := decide (o.t.toNat < 4)
  vcompare o fun b c i => (f (ival g w (c.elem o.a.toNat w i)) (ival g w (intSource o false w b c i)), 0)

/-- A floating-point comparison of the parts of two elements. -/
def vfcmp (o : V32) (f : List FV → List FV → Bool × BitVec 5) : VSem :=
  let t := o.t.toNat
  vcompare o fun b c i => f (parts t (c.elem o.a.toNat (tyWidth t) i)) (fpSource o t b c i)

/-- A value of two lists is a NaN. -/
def anyNan (x y : List FV) : Bool := (x ++ y).any (·.isNan)

/-- NV for a signalling NaN of two lists. -/
def sigFlag (x y : List FV) : BitVec 5 := nvIf ((x ++ y).any (·.isSig))

/-- An ordered comparison: a NaN gives 0 with NV. -/
def ordered (f : FV → FV → Bool) (x y : List FV) : Bool × BitVec 5 :=
  if anyNan x y then (false, fNV) else ((x.zip y).all fun p => f p.1 p.2, 0)

/-- VEQ (R125). -/
def veqSem (o : V32) : VSem := vicmp o fun a b => a == b
/-- VNE (R125). -/
def vneSem (o : V32) : VSem := vicmp o fun a b => a != b
/-- VLT (R125). -/
def vltSem (o : V32) : VSem := vicmp o fun a b => a < b
/-- VLE (R125). -/
def vleSem (o : V32) : VSem := vicmp o fun a b => a ≤ b
/-- VGT (R125). -/
def vgtSem (o : V32) : VSem := vicmp o fun a b => b < a
/-- VGE (R125). -/
def vgeSem (o : V32) : VSem := vicmp o fun a b => b ≤ a
/-- VFEQ: equal in every part; NV only for a signalling NaN (R51, R125). -/
def vfeqSem (o : V32) : VSem := vfcmp o fun x y => (!anyNan x y && (x.zip y).all fun p => p.1.eq p.2, sigFlag x y)
/-- VFLT (R125). -/
def vfltSem (o : V32) : VSem := vfcmp o (ordered FV.lt)
/-- VFLE (R125). -/
def vfleSem (o : V32) : VSem := vfcmp o (ordered fun x y => !y.lt x)
/-- VFUNORD (R125). -/
def vfunordSem (o : V32) : VSem := vfcmp o fun x y => (anyNan x y, sigFlag x y)

/-- VEQ (R125). -/
def execVeq (o : V32) (s : State) : Out := s.vector (.veq o) o.a o.b (veqSem o)
/-- VNE (R125). -/
def execVne (o : V32) (s : State) : Out := s.vector (.vne o) o.a o.b (vneSem o)
/-- VLT (R125). -/
def execVlt (o : V32) (s : State) : Out := s.vector (.vlt o) o.a o.b (vltSem o)
/-- VLE (R125). -/
def execVle (o : V32) (s : State) : Out := s.vector (.vle o) o.a o.b (vleSem o)
/-- VGT (R125). -/
def execVgt (o : V32) (s : State) : Out := s.vector (.vgt o) o.a o.b (vgtSem o)
/-- VGE (R125). -/
def execVge (o : V32) (s : State) : Out := s.vector (.vge o) o.a o.b (vgeSem o)
/-- VFEQ (R125). -/
def execVfeq (o : V32) (s : State) : Out := s.vector (.vfeq o) o.a o.b (vfeqSem o)
/-- VFLT (R125). -/
def execVflt (o : V32) (s : State) : Out := s.vector (.vflt o) o.a o.b (vfltSem o)
/-- VFLE (R125). -/
def execVfle (o : V32) (s : State) : Out := s.vector (.vfle o) o.a o.b (vfleSem o)
/-- VFUNORD (R125). -/
def execVfunord (o : V32) (s : State) : Out := s.vector (.vfunord o) o.a o.b (vfunordSem o)

end Sys2Proof.Machine
end

