-- ==== Sys2Proof/Machine/VData.lean ====
section
/-!
DEFINITION. VMOV, VRED, VPERM and MASK (R59 to R62, R126 to R130).
-/

namespace Sys2Proof.Machine

/-! ### VMOV (R126) -/

/-- VMV (R126). -/
def vmvSem (o : V32) : VSem :=
  VSem.map o (fun _ => true) [] [(o.a, Co.width)] Co.width fun _ _ c i => (c.elem o.a.toNat c.width i, 0)

/-- VMVS (R126). -/
def vmvsSem (o : V32) : VSem :=
  VSem.map o (fun _ => true) [o.a] [] Co.width fun a _ c _ => (a.toNat % 2 ^ c.width, 0)

/-- VMERGE writes every element in [vstart, vl), or of the group (R126, R158). -/
def vmergeSem (o : V32) : VSem where
  ok := fun c => c.regsOk [o.d, o.a, o.b]
  rs := []
  dst := none
  vsrc := [o.a, o.b]
  msrc := [o.mr]
  touch := fun _ _ c grp => (c.every grp).flatMap fun i => [o.d, o.a, o.b].map fun r => groupAt c.width r i
  masks := [o.mr]
  run := fun _ _ grp c =>
    (c.vput o.d.toNat c.width ((c.every grp).map fun i =>
      (i, c.elem (if c.mbit o.mr i then o.a.toNat else o.b.toNat) c.width i, 0)), 0)

/-- VMVX: one element as a scalar, by vtype's signedness (R126). -/
def vmvxSem (o : V32) : VSem where
  ok := fun c => c.regsOk [o.a]
  rs := [o.b]
  dst := some o.d
  vsrc := [o.a]
  msrc := []
  touch := fun _ b c _ => if b.toNat < vlmaxW c.width c.nregs then [groupAt c.width o.a b.toNat] else []
  masks := []
  run := fun _ b _ c =>
    (c, if b.toNat < vlmaxW c.width c.nregs then
      ofInt (ival (vtTy c.vtype < 4) c.width (c.elem o.a.toNat c.width b.toNat)) else 0)

/-- VIDX (R126). -/
def vidxSem (o : V32) : VSem :=
  VSem.map o (fun _ => true) [] [] Co.width fun _ _ c i => (i % 2 ^ c.width, 0)

/-- VSOW with the stream k of B[0] and Y (R53, R126). -/
def vsowSem (o : V32) : VSem :=
  VSem.map o (fun _ => true) [] [] Co.width fun _ _ c i =>
    ((sow64 (sowCtr c.sbase i (o.b.toNat % 2 * 128 + o.y.toNat)) c.seed).toNat % 2 ^ c.width, 0)

/-- VMV (R126). -/
def execVmv (o : V32) (s : State) : Out := s.vector (.vmv o) o.a o.b (vmvSem o)
/-- VMVS (R126). -/
def execVmvs (o : V32) (s : State) : Out := s.vector (.vmvs o) o.a o.b (vmvsSem o)
/-- VMVX (R126). -/
def execVmvx (o : V32) (s : State) : Out := s.vector (.vmvx o) o.a o.b (vmvxSem o)
/-- VMERGE (R126). -/
def execVmerge (o : V32) (s : State) : Out := s.vector (.vmerge o) o.a o.b (vmergeSem o)
/-- VIDX (R126). -/
def execVidx (o : V32) (s : State) : Out := s.vector (.vidx o) o.a o.b (vidxSem o)
/-- VSOW (R126). -/
def execVsow (o : V32) (s : State) : Out := s.vector (.vsow o) o.a o.b (vsowSem o)

/-! ### VRED (R59 to R62, R127) -/

/-- The operators of reductions, scans and collectives. -/
inductive Red where
  | sum | min | max | and | or
  deriving DecidableEq, Repr

/-- The identity of an operator in a type (R62). -/
def Red.identity (op : Red) (t : Nat) : Nat :=
  let w := tyWidth t
  if isInt t then
    match op with
    | .sum => 0
    | .min => if t < 4 then 2 ^ (w - 1) - 1 else 2 ^ w - 1
    | .max => if t < 4 then 2 ^ (w - 1) else 0
    | .and => 2 ^ w - 1
    | .or => 0
  else
    let m := fmtOf t
    match op with
    | .sum => if t = 14 then 2 ^ 63 + 2 ^ 31 else m.signBit true
    | .min => if m.inf then m.infCode else m.maxCode
    | .max => (if m.inf then m.infCode else m.maxCode) + m.signBit true
    | _ => 0

/-- One operation on two elements, with one rounding (R59, R62, R127). -/
def Red.apply (op : Red) (t : Nat) (r : Rnd) (x y : Nat) : Nat × BitVec 5 :=
  let w := tyWidth t
  if isInt t then
    (match op with
      | .sum => (x + y) % 2 ^ w
      | .min => if ival (t < 4) w x ≤ ival (t < 4) w y then x else y
      | .max => if ival (t < 4) w x ≤ ival (t < 4) w y then y else x
      | .and => Nat.land x y
      | .or => Nat.lor x y, 0)
  else
    joinParts (((parts t x).zip (parts t y)).map fun p =>
      let e := match op with
        | .sum => p.1.add r.rm p.2
        | .min => FV.pick false p.1 p.2
        | _ => FV.pick true p.1 p.2
      (fmtOf t).round r (.val e.1) e.2)

/-- A partial result with the lowest index of its elements and the flags so far. -/
abbrev Partial := Nat × Nat × BitVec 5

/-- A partial result with one more element added at its index. -/
def addElem (op : Red) (t : Nat) (rnd : Nat → Rnd) (p : Option Partial) (i x : Nat) : Option Partial :=
  match p with
  | none => some (x, i, 0)
  | some (v, j, f) =>
    let r := op.apply t (rnd i) v x
    some (r.1, j, f ||| r.2)

/-- One level of the tree: results 2j and 2j + 1 added in that order (R59). -/
def treeLevel (op : Red) (t : Nat) (rnd : Nat → Rnd) : List (Option Partial) → List (Option Partial)
  | some a :: some b :: r =>
    let x := op.apply t (rnd b.2.1) a.1 b.1
    some (x.1, Nat.min a.2.1 b.2.1, a.2.2 ||| b.2.2 ||| x.2) :: treeLevel op t rnd r
  | none :: b :: r => b :: treeLevel op t rnd r
  | a :: none :: r => a :: treeLevel op t rnd r
  | l => l

/-- The levels of the tree. -/
def treeLevels (op : Red) (t : Nat) (rnd : Nat → Rnd) : Nat → List (Option Partial) → List (Option Partial)
  | 0, l => l
  | n + 1, l => treeLevels op t rnd n (treeLevel op t rnd l)

/-- The sum of elements in the order of R59: 64 partials, 32 for 64-bit elements, and the tree. -/
def treeSum (op : Red) (t : Nat) (rnd : Nat → Rnd) (xs : List (Nat × Nat)) : Option Partial :=
  let w := tyWidth t
  let n := if w = 64 then 32 else 64
  let e := 2048 / w
  let ps := (List.range n).map fun k =>
    (xs.filter fun x => x.1 % e / (e / n) == k).foldl (fun p x => addElem op t rnd p x.1 x.2) none
  (treeLevels op t rnd 6 ps).headD none

/-- Elements combined one after another from a value. -/
def chainFrom (op : Red) (t : Nat) (rnd : Nat → Rnd) (v : Nat) (xs : List (Nat × Nat)) : Nat × BitVec 5 :=
  xs.foldl (fun p x =>
    let r := op.apply t (rnd x.1) p.1 x.2
    (r.1, p.2 ||| r.2)) (v, 0)

/-- A minimum or a maximum. -/
def Red.isExtreme (op : Red) : Bool := op == .min || op == .max

/-- The result of a reduction over active elements, with its initial value where there is one (R59, R60, R127). A minimum or maximum of
one NaN is the canonical NaN, with NV for a signalling one: R59 takes an element unchanged for sums alone (DEDUCED, log 52: R39). -/
def reduceValue (op : Red) (strict : Bool) (t : Nat) (rnd : Nat → Rnd) (init : Option Nat) (xs : List (Nat × Nat)) : Nat × BitVec 5 :=
  if strict then chainFrom op t rnd (init.getD (op.identity t)) xs
  else match treeSum op t rnd xs with
    | none => (init.getD (op.identity t), 0)
    | some p =>
      match init with
      | none => if op.isExtreme && xs.length == 1 then op.apply t (rnd 0) p.1 p.1 else (p.1, p.2.2)
      | some v =>
        let r := op.apply t (rnd 0) p.1 v
        (r.1, p.2.2 ||| r.2)

/-- The running values of a scan at its active elements (R61). -/
def scanValues (op : Red) (t : Nat) (rnd : Nat → Rnd) : Nat → List (Nat × Nat) → List (Nat × Nat × BitVec 5)
  | _, [] => []
  | v, x :: r =>
    let y := op.apply t (rnd x.1) v x.2
    (x.1, y) :: scanValues op t rnd y.1 r

/-- The initial value: element 0 of v[B] where X = 1 (R127). -/
def redInit (o : V32) (c : Co) : Option Nat :=
  if o.x = 1 then some (c.elem o.b.toNat (tyWidth o.t.toNat) 0) else none

/-- The active elements of v[A] with their indices. -/
def redElems (o : V32) (grp : Option (BitVec 65536)) (c : Co) : List (Nat × Nat) :=
  (c.active grp o).map fun i => (i, c.elem o.a.toNat (tyWidth o.t.toNat) i)

/-- The registers that a reduction names as sources. -/
def redSources (o : V32) : List Reg := if o.x = 1 then [o.a, o.b] else [o.a]

/-- A reduction or a scan: out gives what it writes to v[D] (R127). -/
def vred (o : V32) (out : Co → Option (BitVec 65536) → List (Nat × Nat × BitVec 5)) : VSem :=
  let w := tyWidth o.t.toNat
  { ok := fun c => o.sameWidth c && c.regsOk (o.d :: redSources o)
    rs := []
    dst := none
    vsrc := redSources o
    msrc := o.mask
    touch := fun _ _ c grp =>
      (if c.vl = 0 then [] else [groupAt w o.d 0]) ++ (if o.x = 1 then [groupAt w o.b 0] else []) ++
        (c.active grp o).flatMap fun i => [groupAt w o.a i, groupAt w o.d i]
    masks := o.mask
    run := fun _ _ grp c => (c.vput o.d.toNat w (out c grp), 0) }

/-- A reduction: element 0 of v[D], whenever vl is not 0 (R127). -/
def vreduce (o : V32) (op : Red) (strict : Bool) : VSem :=
  vred o fun c grp =>
    if c.vl = 0 then []
    else [(0, reduceValue op strict o.t.toNat (fun i => c.rnd o.rm.toNat i) (redInit o c) (redElems o grp c))]

/-- A scan: the running value at each active element (R61, R127). -/
def vscan (o : V32) (op : Red) : VSem :=
  vred o fun c grp =>
    scanValues op o.t.toNat (fun i => c.rnd o.rm.toNat i) ((redInit o c).getD (op.identity o.t.toNat)) (redElems o grp c)

/-- VREDSUM (R59). -/
def execVredsum (o : V32) (s : State) : Out := s.vector (.vredsum o) o.a o.b (vreduce o .sum false)
/-- VREDOSUM (R60). -/
def execVredosum (o : V32) (s : State) : Out := s.vector (.vredosum o) o.a o.b (vreduce o .sum true)
/-- VREDMIN (R127). -/
def execVredmin (o : V32) (s : State) : Out := s.vector (.vredmin o) o.a o.b (vreduce o .min false)
/-- VREDMAX (R127). -/
def execVredmax (o : V32) (s : State) : Out := s.vector (.vredmax o) o.a o.b (vreduce o .max false)
/-- VREDAND (R127). -/
def execVredand (o : V32) (s : State) : Out := s.vector (.vredand o) o.a o.b (vreduce o .and false)
/-- VREDOR (R127). -/
def execVredor (o : V32) (s : State) : Out := s.vector (.vredor o) o.a o.b (vreduce o .or false)
/-- VSCANSUM (R61). -/
def execVscansum (o : V32) (s : State) : Out := s.vector (.vscansum o) o.a o.b (vscan o .sum)
/-- VSCANMIN (R61). -/
def execVscanmin (o : V32) (s : State) : Out := s.vector (.vscanmin o) o.a o.b (vscan o .min)
/-- VSCANMAX (R61). -/
def execVscanmax (o : V32) (s : State) : Out := s.vector (.vscanmax o) o.a o.b (vscan o .max)

/-! ### VPERM (R128, R129) -/

/-- A permutation: each written element of v[D] with the element of v[A] that it takes, none for one that reads as its own number. -/
def vpermute (o : V32) (ok : Co → Bool) (rs : List Reg) (srcs : List Reg)
    (pairs : Word → Co → Option (BitVec 65536) → List (Nat × Option Nat × Nat)) (idx : List Reg) : VSem where
  ok := fun c => ok c && c.regsOk (o.d :: srcs)
  rs := rs
  dst := none
  vsrc := srcs
  msrc := o.mask
  touch := fun _ b c grp =>
    (pairs b c grp).flatMap (fun p => groupAt c.width o.d p.1 :: match p.2.1 with
      | some j => [groupAt c.width o.a j]
      | none => []) ++ (c.active grp o).flatMap fun i => idx.map fun r => groupAt c.width r i
  masks := o.mask
  run := fun _ b grp c =>
    (c.vput o.d.toNat c.width ((pairs b c grp).map fun p =>
      (p.1, match p.2.1 with
        | some j => c.elem o.a.toNat c.width j
        | none => p.2.2, 0)), 0)

/-- The distance of a slide: s[B], or B itself (R128). -/
def slideBy (o : V32) (b : Word) : Nat := if o.x = 1 then b.toNat else o.b.toNat

/-- An index below vlmax, else none. -/
def inRegister (c : Co) (j : Nat) : Option Nat := if j < vlmaxW c.width c.nregs then some j else none

/-- VGATHER (R128). -/
def vgatherSem (o : V32) : VSem :=
  vpermute o (fun _ => o.d != o.a && o.d != o.b) [] [o.a, o.b]
    (fun _ c grp => (c.active grp o).map fun i => (i, inRegister c (c.elem o.b.toNat c.width i), 0)) [o.b]

/-- VSLIDEUP (R128). -/
def vslideupSem (o : V32) : VSem :=
  vpermute o (fun _ => o.d != o.a) o.ssrc [o.a]
    (fun b c grp => ((c.active grp o).filter fun i => slideBy o b ≤ i).map fun i => (i, some (i - slideBy o b), 0)) []

/-- VSLIDEDN (R128). -/
def vslidednSem (o : V32) : VSem :=
  vpermute o (fun _ => o.d != o.a) o.ssrc [o.a]
    (fun b c grp => (c.active grp o).map fun i => (i, inRegister c (i + slideBy o b), 0)) []

/-- VCOMPRESS (R129). -/
def vcompressSem (o : V32) : VSem :=
  vpermute o (fun _ => o.d != o.a) [] [o.a]
    (fun _ c grp => ((c.active grp o).zipIdx).map fun p => (p.2, some p.1, 0)) []

/-- VCIDX (R129). -/
def vcidxSem (o : V32) : VSem :=
  vpermute o (fun _ => true) [] []
    (fun _ c grp => ((c.active grp o).zipIdx).map fun p => (p.2, none, p.1 % 2 ^ c.width)) []

/-- VGATHER (R128). -/
def execVgather (o : V32) (s : State) : Out := s.vector (.vgather o) o.a o.b (vgatherSem o)
/-- VSLIDEUP (R128). -/
def execVslideup (o : V32) (s : State) : Out := s.vector (.vslideup o) o.a o.b (vslideupSem o)
/-- VSLIDEDN (R128). -/
def execVslidedn (o : V32) (s : State) : Out := s.vector (.vslidedn o) o.a o.b (vslidednSem o)
/-- VCOMPRESS (R129). -/
def execVcompress (o : V32) (s : State) : Out := s.vector (.vcompress o) o.a o.b (vcompressSem o)
/-- VCIDX (R129). -/
def execVcidx (o : V32) (s : State) : Out := s.vector (.vcidx o) o.a o.b (vcidxSem o)

/-! ### MASK (R130) -/

/-- The bits [0, vl). -/
def Co.lowMask (c : Co) : BitVec 65536 := BitVec.allOnes 65536 >>> (65536 - c.vl.toNat)

/-- A mask that a MASK field names. -/
def maskNo (r : Reg) : BitVec 3 := r.setWidth 3

/-- A mask register of a field. -/
def Co.mval (c : Co) (r : Reg) : BitVec 65536 := c.m[(maskNo r).toNat]

/-- Bits below vl of a mask written; the others stay (R130). -/
def Co.setLow (c : Co) (d : Reg) (x : BitVec 65536) : Co :=
  c.setMask (maskNo d) ((c.mval d &&& ~~~c.lowMask) ||| (x &&& c.lowMask))

/-- A form that writes a mask from masks and a scalar. -/
def maskSem (d : Reg) (srcs : List Reg) (rs : List Reg) (f : Word → Co → BitVec 65536) : VSem where
  ok := fun _ => true
  rs := rs
  dst := none
  vsrc := []
  msrc := srcs.map maskNo
  touch := fun _ _ _ _ => []
  masks := maskNo d :: srcs.map maskNo
  run := fun a _ _ c => (c.setLow d (f a c), 0)

/-- A form that reads a mask to a scalar. -/
def maskScalar (d a : Reg) (f : BitVec 65536 → Word) : VSem where
  ok := fun _ => true
  rs := []
  dst := some d
  vsrc := []
  msrc := [maskNo a]
  touch := fun _ _ _ _ => []
  masks := [maskNo a]
  run := fun _ _ _ c => (c, f (c.mval a &&& c.lowMask))

/-- The least set bit, or all ones where there is none (R130). -/
def firstBit (x : BitVec 65536) : Word :=
  match (List.range 65536).find? x.getLsbD with
  | some i => BitVec.ofNat 64 i
  | none => BitVec.allOnes 64

/-- MFROMV: bits of elements, not values (R130). -/
def mfromvSem (d a : Reg) : VSem where
  ok := fun c => c.regsOk [a]
  rs := []
  dst := none
  vsrc := [a]
  msrc := []
  touch := fun _ _ c _ => (List.range c.vl.toNat).map (groupAt c.width a)
  masks := [maskNo d]
  run := fun _ _ _ c =>
    (c.mput (maskNo d) ((List.range c.vl.toNat).map fun i => (i, c.elem a.toNat c.width i != 0)), 0)

/-- The lowest n bits, n at most 65,536. -/
def onesBelow (n : Nat) : BitVec 65536 := BitVec.allOnes 65536 >>> (65536 - n)

/-- The meaning of MAND (R130). -/
def mandSem (d a b : Reg) : VSem := maskSem d [a, b] [] fun _ c => c.mval a &&& c.mval b
/-- The meaning of MOR (R130). -/
def morSem (d a b : Reg) : VSem := maskSem d [a, b] [] fun _ c => c.mval a ||| c.mval b
/-- The meaning of MXOR (R130). -/
def mxorSem (d a b : Reg) : VSem := maskSem d [a, b] [] fun _ c => c.mval a ^^^ c.mval b
/-- The meaning of MANDN (R130). -/
def mandnSem (d a b : Reg) : VSem := maskSem d [a, b] [] fun _ c => c.mval a &&& ~~~c.mval b
/-- The meaning of MNOT (R130). -/
def mnotSem (d a : Reg) : VSem := maskSem d [a] [] fun _ c => ~~~c.mval a
/-- The meaning of MPOPC (R130). -/
def mpopcSem (d a : Reg) : VSem := maskScalar d a fun x => BitVec.ofNat 64 (popcount x)
/-- The meaning of MFIRST (R130). -/
def mfirstSem (d a : Reg) : VSem := maskScalar d a firstBit
/-- The meaning of MSETVL (R130). -/
def msetvlSem (d a : Reg) : VSem := maskSem d [] [a] fun x c => onesBelow (Nat.min x.toNat c.vl.toNat)
/-- The meaning of MCLR (R130). -/
def mclrSem (d : Reg) : VSem := maskSem d [] [] fun _ _ => 0

/-- MAND (R130). -/
def execMand (d a b : Reg) (s : State) : Out := s.vector (.mand d a b) 0 0 (mandSem d a b)
/-- MOR (R130). -/
def execMor (d a b : Reg) (s : State) : Out := s.vector (.mor d a b) 0 0 (morSem d a b)
/-- MXOR (R130). -/
def execMxor (d a b : Reg) (s : State) : Out := s.vector (.mxor d a b) 0 0 (mxorSem d a b)
/-- MANDN (R130). -/
def execMandn (d a b : Reg) (s : State) : Out := s.vector (.mandn d a b) 0 0 (mandnSem d a b)
/-- MNOT (R130). -/
def execMnot (d a : Reg) (s : State) : Out := s.vector (.mnot d a) 0 0 (mnotSem d a)
/-- MPOPC (R130). -/
def execMpopc (d a : Reg) (s : State) : Out := s.vector (.mpopc d a) 0 0 (mpopcSem d a)
/-- MFIRST (R130). -/
def execMfirst (d a : Reg) (s : State) : Out := s.vector (.mfirst d a) 0 0 (mfirstSem d a)
/-- MFROMV (R130). -/
def execMfromv (d a : Reg) (s : State) : Out := s.vector (.mfromv d a) 0 0 (mfromvSem d a)
/-- MSETVL (R130). -/
def execMsetvl (d a : Reg) (s : State) : Out := s.vector (.msetvl d a) a 0 (msetvlSem d a)
/-- MCLR (R130). -/
def execMclr (d : Reg) (s : State) : Out := s.vector (.mclr d) 0 0 (mclrSem d)

end Sys2Proof.Machine
end

