-- ==== Sys2Proof/Machine/Matrix.lean ====
section
/-!
DEFINITION. The matrix unit: MLOADW, MSTREAM, MZERO, MREAD, MWRITE (R168 to R180, R189 to R193), and what a row of
activations adds to a row of accumulators (R45, R63, R64, R178).
-/

namespace Sys2Proof.Machine

/-! ### Shapes (R168, R170, R171) -/

/-- Columns of a tile. -/
def tileN (t : BitVec 4) : Nat :=
  match t.toNat with
  | 12 => 128
  | 14 => 64
  | _ => 256

/-- Bytes of a column, and of an activation row. -/
def columnBytes (t : BitVec 4) : Nat := tileBytes t / tileN t

/-- Element k of a column or row at an offset, in its parts: f4 in block groups of 72 bytes (R43, R170). -/
def operandElem (t : BitVec 4) (b : Nat → Byte) (k : Nat) : List FV :=
  if t = 8 then [(fmtOf 8).value (bits (b (72 * (k / 128) + k % 128 / 2)).toNat (4 * (k % 2)) 4)]
  else
    let n := tyWidth t.toNat / 8
    parts t.toNat (leNat ((List.range n).map fun i => b (k * n + i)))

/-- The scale of the block of 16 elements that element k of an f4 column or row lies in (R43). -/
def blockScale (b : Nat → Byte) (k : Nat) : Nat := (b (72 * (k / 128) + 64 + k % 128 / 16)).toNat

/-! ### The chain (R45, R63, R64) -/

/-- An addend of the chain: one that is exactly zero enters as +0. -/
def chainTerm (x : FV) : FV := if x.isZero then .fin false 0 0 else x

/-- The exact product. -/
def FV.times (x y : FV) : FV := (x.mul y).1

/-- The exact sum. -/
def FV.plus (x y : FV) : FV := (FV.add 1 x y).1

/-- The exact sum of a list. -/
def exactSum (l : List FV) : FV := l.foldl FV.plus (.fin false 0 0)

/-- The chain value of its addends in order: the first is rounded to a80, the others added (R63). -/
def chainSum : List FV → BitVec 80
  | [] => 0
  | x :: r => r.foldl (fun c v => a80Add (a80Val c) (chainTerm v)) (a80Of (chainTerm x))

/-- 2^(e - 127) (R43, R64). -/
def scaleValue (e : Nat) : FV := if e = 255 then .nan false else .fin false 1 ((e : Int) - 127)

/-- A value cut toward zero to a multiple of 2^u, in those units (R64). -/
def cutUnits (u : Int) : FV → Int
  | .fin neg m e =>
    let x : Nat := (dyFloor m e u).1
    if neg then -(x : Int) else x
  | _ => 0

/-- floor(log2 |b|) of a value that is finite and not zero. -/
def topBit : FV → Option Int
  | .fin _ m e => if m = 0 then none else some (Nat.log2 m + e)
  | _ => none

/-- The sum of a group's block sums inside the 96-bit window (R64). -/
def groupSum (bs : List FV) : FV :=
  if bs.any FV.isNan then .nan false
  else match bs.filterMap topBit with
    | [] => .fin false 0 0
    | x :: r =>
      let u := r.foldl max x - 95
      let n := (bs.map (cutUnits u)).foldl (· + ·) 0
      .fin (n < 0) n.natAbs u

/-- Block j of group g of an f4 row and column: its 16 products under both scales (R64). -/
def blockSum (x w : Nat → Byte) (g j : Nat) : FV :=
  let k0 := 128 * g + 16 * j
  let p := exactSum ((List.range 16).map fun i =>
    ((operandElem 8 x (k0 + i)).headD (.fin false 0 0)).times ((operandElem 8 w (k0 + i)).headD (.fin false 0 0)))
  (p.times (scaleValue (blockScale x k0))).times (scaleValue (blockScale w k0))

/-- The product of element k of a row and a column, by parts (R63). -/
def productAt (t : BitVec 4) (x w : Nat → Byte) (k : Nat) : List FV :=
  match operandElem t x k, operandElem t w k with
  | [xr, xi], [wr, wi] => [(xr.times wr).plus (xi.times wi).neg, (xr.times wi).plus (xi.times wr)]
  | a, b => (a.zip b).map fun p => p.1.times p.2

/-- The exact sum of n products from k on. -/
def productSum (t : BitVec 4) (x w : Nat → Byte) (k n : Nat) : FV :=
  exactSum ((List.range n).map fun i => (productAt t x w (k + i)).headD (.fin false 0 0))

/-- The chain value of an activation row and column n of a plane, one for each part (R63); sa and sw are the f8 scales. -/
def chainOf (t : BitVec 4) (x w : Nat → Byte) (sa sw : Nat → FV) : List (BitVec 80) :=
  match t.toNat with
  | 8 => [chainSum ((List.range 16).map fun g => groupSum ((List.range 8).map (blockSum x w g)))]
  | 9 => [chainSum ((List.range 8).map fun q => ((productSum t x w (128 * q) 128).times (sa q)).times (sw q))]
  | 12 => [chainSum ((List.range 128).map fun k => productSum t x w k 1)]
  | 14 =>
    let ps := (List.range 64).map (productAt t x w)
    [chainSum (ps.map fun p => p.headD (.fin false 0 0)), chainSum (ps.map fun p => (p.drop 1).headD (.fin false 0 0))]
  | _ => [chainSum ((List.range 256).map fun k => productSum t x w (2 * k) 2)]

/-! ### The accumulator (R173) -/

/-- The key of an entry. -/
def accKey (tile row e : Nat) : Nat := (tile * 128 + row) * 256 + e

/-- An entry of the accumulator. -/
def Cluster.accAt (c : Cluster) (tile row e : Nat) : BitVec 80 := Tab.get 0 c.acc (accKey tile row e)

/-- An entry replaced; +0 is not listed. -/
def accSet (l : List (Nat × BitVec 80)) (k : Nat) (v : BitVec 80) : List (Nat × BitVec 80) :=
  if v = 0 then Tab.del l k else Tab.set l k v

/-- Entries of a row replaced. -/
def Cluster.setRow (c : Cluster) (tile row : Nat) (es : List (Nat × BitVec 80)) : Cluster :=
  { c with acc := es.foldl (fun l e => accSet l (accKey tile row e.1) e.2) c.acc }

/-- A row's mark of an error (R180). -/
def Cluster.markRow (c : Cluster) (tile row : Nat) (bad : Bool) : Cluster :=
  let k := tile * 128 + row
  { c with badRows := if bad then k :: c.badRows.filter (· != k) else c.badRows.filter (· != k)
           upsets := if bad then c.upsets else c.upsets.filter (· != k) }

/-- The entries of a row after a job's activation row has been added (R178). -/
def Cluster.addRow (c : Cluster) (p : Plane) (tile row : Nat) (x : Nat → Byte) (sa : Nat → FV) : Cluster :=
  let t := p.w.t
  let cb := columnBytes t
  let es := (List.range (tileN t)).flatMap fun n =>
    let sw := fun q => (fmtOf 12).value (p.w.scales.getD (q + 8 * (n / 128)) 0).toNat
    let cs := chainOf t x (fun o => memGet p.data (n * cb + o)) sa sw
    (cs.zipIdx).map fun y =>
      let e := n * cs.length + y.2
      (e, a80Add (a80Val (c.accAt tile row e)) (a80Val y.1))
  c.setRow tile row es

/-! ### Jobs that cover a row (R189) -/

/-- The job has yet to update a row of a tile, from its own row number r on. -/
def Job.covers (j : Job) (r tile row : Nat) : Bool := j.tile.toNat == tile && j.start + r ≤ row && row < j.start + j.count

/-- A job enqueued before has yet to update the row: MREAD waits for it (R189). -/
def State.rowPending (s : State) (cl tile row : Nat) : Bool :=
  let u := (s.cluster cl).unit
  u.granted.any (·.covers 0 tile row) || u.running.any (·.covers u.row tile row) ||
    (List.range 8).any fun j => (s.core (cl * 8 + j)).jobs.any (·.covers 0 tile row)

/-! ### MLOADW (R172, R176, R177) -/

/-- The core waits until no element group of v7 is pending, then its first n elements at 32 bits are read (R172). -/
def State.readVsc (s : State) (n : Nat) (k : List (BitVec 32) → Out) : Out :=
  if !s.cur.vq.isEmpty then .next s.stall
  else s.vread [7] [] <|
    if s.ext.holds (fun _ => (List.range (s.co.vbytes / 256)).map fun j => (7, j)) [] then .next s.stall
    else k ((List.range n).map fun e => BitVec.ofNat 32 (s.co.elem 7 32 e))

/-- The tile lies wholly in one scratchpad of the cluster or in the die's granary (R176). -/
def State.tileFits (s : State) (cl : Nat) (pa n : Nat) : Bool :=
  paPkg pa == cl / 128 &&
    match s.region pa with
    | .scratch c => c / 8 == cl % 128 && paLocal pa % 2 ^ 18 + n ≤ 2 ^ 18
    | .granary d => d == cl % 128 / 32 && paLocal pa % 2 ^ 30 + n ≤ 2 ^ 30
    | _ => false

/-- The weight descriptor of the core in focus. -/
def State.setWeights (s : State) (w : Weights) : State := s.setCur { s.cur with weights := some w }

/-- MLOADW: the core's weight descriptor (R176). -/
def execMloadw (a : Reg) (t : BitVec 4) (s : State) : Out :=
  s.issue [a] [] fun s =>
    let va := s.rd a
    if va.toNat % 256 ≠ 0 then s.trapHere 5 va
    else s.access (s.translated .load va (tileBytes t)) fun s segs =>
        let pa := (segs.headD ⟨0, 0, false⟩).pa
        if !s.tileFits (clusterOf s.focus) pa (tileBytes t) then s.trapHere 5 va
        else
          let go := fun (xs : List (BitVec 32)) =>
            let w := ⟨pa, t, xs, s.co.cid, va, s.co.asid⟩
            s.endsWith s (.weights w) fun u => u.setWeights w
          if t = 9 then s.readVsc 16 go else go []

/-! ### The arbiter (R182, R183) -/

/-- The weight of a core. -/
def Cluster.weight (c : Cluster) (j : Nat) : Nat := field c.marbw (8 * j) 8

/-- grant(): the core whose head is granted, and the pointer and credit after it (R183). -/
def State.arbiter (s : State) (cl : Nat) : Option (Nat × Nat × Nat) :=
  let c := s.cluster cl
  let full := fun j => (s.core (cl * 8 + j)).jobs != []
  let order := (List.range 8).map fun j => (c.ptr + j + 1) % 8
  if full c.ptr && 0 < c.credit then some (c.ptr, c.ptr, c.credit - 1)
  else match order.find? fun j => full j && 0 < c.weight j with
    | some j => some (j, j, c.weight j - 1)
    | none => (order.find? full).map fun j => (j, j, 0)

/-- The unit of a cluster replaced. -/
def State.setUnit (s : State) (cl : Nat) (u : MatUnit) : State := s.setCluster cl { s.cluster cl with unit := u }

/-- The job streams. -/
def Job.streams (j : Job) : Bool :=
  match j.kind with
  | .stream _ _ _ _ _ => true
  | _ => false

/-- The descriptor that a job streams with. -/
def Job.weights (j : Job) : Option Weights :=
  match j.kind with
  | .stream _ w _ _ _ => some w
  | _ => none

/-- The job can reuse the active plane (R184). One whose fill met an error is reused as any other: the spec says nothing of it, and the rows
of the job are unchanged and marked, with no further record (DESIGN CHOICE, log 53). -/
def MatUnit.reuses (u : MatUnit) (w : Weights) : Bool :=
  match u.plane with
  | some p => !p.stale && p.w.pa == w.pa && p.w.t == w.t && p.w.scales == w.scales
  | none => false

/-- The unit takes the job that grant() returns: it reuses the plane or starts a fill (R183, R184). -/
def State.grantNext (s : State) (cl : Nat) : State :=
  let c := s.cluster cl
  match s.arbiter cl with
  | none => s
  | some (k, ptr, credit) =>
    let g := cl * 8 + k
    match (s.core g).jobs with
    | [] => s
    | j :: rest =>
      let s1 := s.setCore g ({ s.core g with jobs := rest }.count 14 1 none)
      let fill := match j.weights with
        | some w => if c.unit.reuses w then none else some w
        | none => none
      let u1 := { c.unit with
        granted := some j, filling := fill.isSome, filled := 0, shadow := fill.map fun w => ⟨w, [], none, false⟩ }
      let s2 := s1.setCluster cl { c with ptr := ptr, credit := credit, unit := u1 }
      if fill.isSome then s2.post (.planeFillComplete cl)
      else (s2.releaseLocks (cl / 128) (j.id + 1)).post (.jobStart cl)

/-- The unit calls grant() while it is idle (R184). -/
def State.grantIdle (s : State) (cl : Nat) : State :=
  let u := (s.cluster cl).unit
  if u.granted.isSome || u.running.isSome then s else s.grantNext cl

/-- JOB_GRANT: an idle unit takes the next job (R184). -/
def execJobGrant (cl : Nat) (s : State) : Out := .next (s.grantIdle cl)

/-! ### MSTREAM, MZERO, MWRITE (R178, R179, R181, R186) -/

/-- The check of R178 on a count and a start row. -/
def rowsBad (count start : Word) : Bool :=
  count == 0 || 128 < count.toNat || 127 < start.toNat || 128 < start.toNat + count.toNat

/-- A job of the core in focus. -/
def State.newJob (s : State) (kind : JobKind) (tile : BitVec 3) (start count : Nat) : Job :=
  ⟨s.ids, kind, tile, start, count, s.who, s.co.tenant, s.co.asid⟩

/-- The job enters its core's queue (R181), which an idle unit serves at once (R184). Its two numbers are the owners of its locks. -/
def State.enqueue (s : State) (j : Job) : State :=
  let s1 := s.setCur { s.cur with jobs := s.cur.jobs ++ [{ j with id := s.ids }] }
  { s1 with ids := s.ids + 2 }.grantIdle (clusterOf s.focus)

/-- The core's queue of 16 has an entry (R181). -/
def Core.queueRoom (c : Core) : Bool := c.jobs.length < 16

/-- The lowest byte of segments that lies outside the core's own scratchpad, by its offset (R178). -/
def offOwn (g : CoreId) : Nat → List Seg → Option Nat
  | _, [] => none
  | o, x :: r =>
    let lo := scratchPa g
    if x.pa < lo ∨ lo + 2 ^ 18 ≤ x.pa then some o
    else if lo + 2 ^ 18 < x.pa + x.len then some (o + (lo + 2 ^ 18 - x.pa))
    else offOwn g (o + x.len) r

/-- The weight tile's range as a source that takes a lock: in a scratchpad alone (R186). -/
def State.tileSegs (s : State) (w : Weights) : List Seg :=
  match s.region w.pa with
  | .scratch _ => [⟨w.pa, tileBytes w.t, false⟩]
  | _ => []

/-- The registration of an MSTREAM cannot be made now (R186, R252, R260). -/
def State.streamHeld (s : State) (rows tile : List Seg) : Bool :=
  let p := pkgOf s.focus
  s.lockMeets p [] (rows ++ tile) || s.tablesFull rows tile || s.registrationHeld p [] (rows ++ tile)

/-- Bytes of runs that are not zero, by their offset from the first. -/
def runData (m : List Host.Cell) : Nat → List (Nat × Nat) → List Host.Cell
  | _, [] => []
  | o, (a, n) :: r => ((m.filter fun x => a ≤ x.1 && x.1 < a + n).map fun x => (o + (x.1 - a), x.2)) ++ runData m (o + n) r

/-- What an MSTREAM's job captures at its registration (R178, R187). -/
def State.streamJob (s : State) (rows : List Seg) (w : Weights) (acts : List (BitVec 32)) (tile : List Seg) : JobKind :=
  let runs := fun (l : List Seg) => l.map fun g => (g.pa, g.len)
  .stream (runs rows) w acts (runData s.mem 0 (runs rows)) (if tile = [] then none else some (runData s.mem 0 (runs tile)))

/-- The registration of an MSTREAM with its job enqueued (R178, R186). -/
def State.startStream (s : State) (j : Job) (rows tile : List Seg) : State :=
  let p := pkgOf s.focus
  ((s.registerRange p s.ids [] rows 0).registerRange p (s.ids + 1) [] tile 0).enqueue j

/-- A job enqueued that takes no lock (R179). -/
def State.startJob (s : State) (kind : JobKind) (x : BitVec 3) (start count : Nat) : State := s.enqueue (s.newJob kind x start count)

/-- Runs of bytes as segments. -/
def runSegs (l : List (Pa × Nat)) : List Seg := l.map fun g => ⟨g.1, g.2, false⟩

/-- The registration of an MSTREAM of these rows and this descriptor cannot be made now (R186, R252, R260). -/
def State.rowsHeld (s : State) (rows : List (Pa × Nat)) (w : Weights) : Bool := s.streamHeld (runSegs rows) (s.tileSegs w)

/-- The registration of an MSTREAM (R178, R186). -/
def State.startRows (s : State) (x : BitVec 3) (start count : Nat) (w : Weights) (rows : List (Pa × Nat)) (acts : List (BitVec 32)) : State :=
  let tile := s.tileSegs w
  s.startStream (s.newJob (s.streamJob (runSegs rows) w acts tile) x start count) (runSegs rows) tile

/-- The segments of a run of the core's own scratchpad; etval of a fault is the lowest byte that fails, be it for its translation or for its
place (R178). -/
def State.ownRun (s : State) (va : Word) (n : Nat) : Acc (List Seg) :=
  let placed := fun (t : State) (segs : List Seg) (k : Acc (List Seg)) => match offOwn s.focus 0 segs with
    | some o => .trap t ⟨5, va + BitVec.ofNat 64 o, 0, none⟩
    | none => k
  match s.translated .load va n with
  | .ok t segs => placed t segs (.ok t segs)
  | .trap t x => match s.translate s.space .load va (x.val - va).toNat with
    | .ok segs => placed t segs (.trap t x)
    | .error _ => .trap t x
  | x => x

/-- MSTREAM: its checks in order, what it captures, its job (R178). -/
def execMstream (x : BitVec 3) (a b c : Reg) (s : State) : Out :=
  let i := Instr.mstream x a b c
  s.issue [a, b, c] [] fun s =>
    if rowsBad (s.rd b) (s.rd c) then s.illegal i
    else match s.cur.weights with
      | none => s.illegal i
      | some w =>
        if w.cid ≠ s.co.cid then s.illegal i
        else
          let va := s.rd a
          let count := (s.rd b).toNat
          if va.toNat % 64 ≠ 0 then s.trapHere 5 va
          else s.access (s.ownRun va (count * columnBytes w.t)) fun s segs =>
              if !s.cur.queueRoom then .next s.stall
              else
                let rows := segs.map fun g => (g.pa, g.len)
                let start := (s.rd c).toNat
                let go := fun (acts : List (BitVec 32)) =>
                  s.endsHeld s (.stream x start count w rows acts) (fun u => u.rowsHeld rows w) fun u => u.startRows x start count w rows acts
                if w.t = 9 then s.readVsc (8 * count) go else go []

/-- MZERO (R179). -/
def execMzero (x : BitVec 3) (b c : Reg) (s : State) : Out :=
  s.issue [b, c] [] fun s =>
    if rowsBad (s.rd b) (s.rd c) then s.illegal (.mzero x b c)
    else if !s.cur.queueRoom then .next s.stall
    else
      let start := (s.rd c).toNat
      let count := (s.rd b).toNat
      s.endsWith s (.job .zero x start count) fun u => u.startJob .zero x start count

/-- Elements of v[a] that MWRITE and MREAD of a type work on, at a vl (R179, R190, R192). -/
def matElements (t : Nat) (vl : Nat) : Nat := min vl (if t = 14 then 128 else if t = 15 then 512 else 256)

/-- The entries that MWRITE writes, with the flags of its conversions (R179). For t = 15 the bits as they are, a NaN's among them, and no
flag, so that MWRITE.a80 restores a row bit for bit (DESIGN CHOICE, log 54: R179's table and R192 against its sentence on NaNs). -/
def Co.writeRow (c : Co) (a t : Nat) : List (Nat × BitVec 80) × BitVec 5 :=
  let w := tyWidth t
  if t = 15 then
    ((List.range (matElements t c.vl.toNat / 2)).map fun e =>
      (e, BitVec.ofNat 80 (c.elem a 64 (2 * e) + 2 ^ 64 * c.elem a 64 (2 * e + 1))), 0)
  else
    let vs := (List.range (matElements t c.vl.toNat)).map fun e => (e, parts t (c.elem a w e))
    (vs.flatMap fun x => (x.2.zipIdx).map fun y => (x.1 * x.2.length + y.2, a80Of y.1),
      vs.foldl (fun f x => f ||| nvIf (x.2.any FV.isSig)) 0)

/-- A matrix command enters the vector queue, where its chunk waits for it while the next one executes (R118, R175, R193). -/
def State.enterQueue (s : State) (e : VEntry) (a : After) : Out :=
  if s.cur.waiting.isSome || 16 ≤ s.cur.vq.length then .next s.stall
  else
    let t := (s.setCur { s.cur with vq := s.cur.vq ++ [e] }).retire
    match (t.setChunk { t.cur.chunk with after := some a, back := some s.co }).defer s.focus with
    | some u => .next (u.post (.vectorQueueExecute s.focus))
    | none => .next s.stall

/-- The element groups that MWRITE reads. -/
def writeTouch (a : Reg) (t : BitVec 4) (c : Co) : List (Nat × Nat) :=
  (List.range (matElements t.toNat c.vl.toNat)).map (groupAt (tyWidth t.toNat) a)

/-- MWRITE: the source is read in the vector queue, where its flag is set, at once where nothing is before it; the job writes the row
(R175, R179). -/
def execMwrite (x : BitVec 3) (a b : Reg) (t : BitVec 4) (s : State) : Out :=
  let w := tyWidth t.toNat
  if !(s.co.regsOk [a] && w == s.co.width) then s.illegal (.mwrite x a b t)
  else s.issue [b] [] fun s =>
    if 127 < (s.rd b).toNat then s.illegal (.mwrite x a b t)
    else if !s.cur.queueRoom then .next s.stall
    else
      let row := (s.rd b).toNat
      if !s.cur.vq.isEmpty || s.ext.holds (fun _ => writeTouch a t s.co) [] then
        s.enterQueue (s.co.entry (.mwrite x a b t) b b) (.job (.write []) x row 1)
      else s.vread [a] [] <|
        let r := s.co.writeRow a.toNat t.toNat
        s.endsWith (s.setCo (s.co.orFlags r.2)) (.job (.write r.1) x row 1) fun u => u.startJob (.write r.1) x row 1

/-! ### MREAD (R190 to R193) -/

/-- An entry rounded to a type; a signalling NaN sets NV (R39, R49). -/
def roundEntry (t : Nat) (r : Rnd) (x : BitVec 80) : Nat × BitVec 5 :=
  (fmtOf t).round r (.val (a80Val x)) (nvIf (a80Val x).isSig)

/-- What MREAD.t writes: elements of v[D] with their flags (R190, R192). -/
def readRow (t : Nat) (rnd : Nat → Rnd) (acc : Nat → BitVec 80) (vl : Nat) : List (Nat × Nat × BitVec 5) :=
  (List.range (matElements t vl)).map fun e =>
    if t = 15 then (e, if e % 2 = 0 then (acc (e / 2)).toNat % 2 ^ 64 else (acc (e / 2)).toNat / 2 ^ 64, 0)
    else if t = 14 then (e, joinParts [roundEntry 12 (rnd e) (acc (2 * e)), roundEntry 12 (rnd e) (acc (2 * e + 1))])
    else (e, roundEntry t (rnd e) (acc e))

/-- The pair form of an entry: hi and lo with their flags (R191). -/
def pairOf (x : BitVec 80) : (Nat × BitVec 5) × (Nat × BitVec 5) :=
  let hi := roundEntry 12 rne x
  match a80Val x, (fmtOf 12).value hi.1 with
  | .nan _, _ => (hi, ((fmtOf 12).nanCode, 0))
  | _, .inf _ => (hi, (0, 0))
  | v, h => (hi, (fmtOf 12).round rne (.val (v.plus h.neg)) 0)

/-- Cause 8 of a read of a marked row, with a memory error record where an error in an accumulator entry marks it (R180, R366 to R368). -/
def State.markedRow (s : State) (cl tile row : Nat) : State :=
  let t := s.takeTrap ⟨8, BitVec.ofNat 64 (tile * 256 + row), 0, none⟩ s.co.pc
  if s.trapReady && (s.cluster cl).upsets.contains (tile * 128 + row) then
    t.errorRecord (pkgOf s.focus) s.co.tenant 1 (Config.accumulatorErrorAddress cl (tile * 128 + row)) s.co.cid 7
  else t

/-- What an MREAD reads and writes: its tile, its destination registers, their width and how many elements of them it writes at a vl, and
the registers after it with the row's entries. -/
structure RowRead where
  tile  : Nat
  ds    : List Reg
  w     : Nat
  count : Nat → Nat
  put   : Co → (Nat → BitVec 80) → Co

/-- What MREAD and MREAD.pair read and write (R190 to R192). -/
def rowRead (i : Instr) : Option RowRead :=
  match i with
  | .mread x d _ y =>
    let t := (y.extractLsb' 3 4).toNat
    let rm := (y.extractLsb' 0 3).toNat
    some ⟨x.toNat, [d], tyWidth t, matElements t, fun c acc => c.vput d.toNat (tyWidth t) (readRow t (c.rnd rm) acc c.vl.toNat)⟩
  | .mreadPair x d _ =>
    some ⟨x.toNat, [d, d + 1], 32, matElements 12, fun c acc =>
      let ps := (List.range (matElements 12 c.vl.toNat)).map fun e => (e, pairOf (acc e))
      (c.vput d.toNat 32 (ps.map fun p => (p.1, p.2.1))).vput (d.toNat + 1) 32 (ps.map fun p => (p.1, p.2.2))⟩
  | _ => none

/-- The element groups that a read of a row writes, at a vl. -/
def RowRead.touch (r : RowRead) (vl : Nat) : List (Nat × Nat) := r.ds.flatMap fun d => (List.range (r.count vl)).map (groupAt r.w d)

/-- A read of a row cannot be made now: a job enqueued before has yet to update the row, or a group that it writes is pending (R118, R189). -/
def State.rowHeld (s : State) (g : CoreId) (r : RowRead) (row vl : Nat) : Bool :=
  s.rowPending (clusterOf g) r.tile row || (s.core g).ext.holds (fun _ => r.touch vl) []

/-- The registers after a read of a row. -/
def State.rowPut (s : State) (g : CoreId) (r : RowRead) (row : Nat) (c : Co) : Co := r.put c ((s.cluster (clusterOf g)).accAt r.tile row)

/-- A read of a row: its checks, then the read with its chunk's commit, at once where nothing is before it, the row is ready and the chunk can
commit, else in the vector queue, while scalar instructions go on; cause 8 where the row is marked (R175, R180, R189, R190, R193). -/
def State.readTile (s : State) (i : Instr) (b : Reg) (r : RowRead) (ok : Bool) : Out :=
  if !(ok && s.co.regsOk r.ds && r.w == s.co.width) then s.illegal i
  else s.issue [b] [] fun s =>
    let row := (s.rd b).toNat
    if 127 < row then s.illegal i
    else if !s.cur.vq.isEmpty || s.rowHeld s.focus r row s.co.vl.toNat || !s.mayCommit s.focus then s.enterQueue (s.co.entry i b b) .read
    else if (s.cluster (clusterOf s.focus)).badRows.contains (r.tile * 128 + row) then
      .next (s.markedRow (clusterOf s.focus) r.tile row)
    else s.ends (s.setCo (s.rowPut s.focus r row s.co))

/-- MREAD (R190, R192). -/
def execMread (x : BitVec 3) (d b : Reg) (y : BitVec 7) (s : State) : Out :=
  let i := Instr.mread x d b y
  match rowRead i with
  | some r => s.readTile i b r true
  | none => s.illegal i

/-- MREAD.pair (R191). -/
def execMreadPair (x : BitVec 3) (d b : Reg) (s : State) : Out :=
  let i := Instr.mreadPair x d b
  match rowRead i with
  | some r => s.readTile i b r (d.toNat + 1 < s.co.nregs)
  | none => s.illegal i

/-! ### The unit (R184, R186 to R188) -/

/-- The bank that a byte of a granary lies in (R185). -/
def bankOf (pa : Pa) : Nat := paLocal pa % 2 ^ 30 / 2 ^ 24

/-- A bank of a die's granary is in refresh: the 128 cycles that start when gphase is 256 times its number (R185). -/
def State.refreshing (s : State) (die bank : Nat) : Bool := (s.gphase die + 16384 - bank % 64 * 256) % 16384 < 128

/-- Bytes that a fill reads in a cycle (R184). -/
def fillBytes : Nat := 2048

/-- The fill waits before its next bytes: a copy's destination overlaps its granary range, or the bank that it reads is in refresh (R185,
R188). -/
def State.fillHeld (s : State) (cl : Nat) (w : Weights) (o : Nat) : Bool :=
  match s.region w.pa with
  | .granary d =>
    ((s.pkg (cl / 128)).locks.any fun l => !l.src && overlaps w.pa (tileBytes w.t) l.lo l.len) ||
      s.refreshing (cl / 128 * 4 + d) (bankOf (w.pa + o)) || s.refreshing (cl / 128 * 4 + d) (bankOf (w.pa + o + fillBytes - 1))
  | _ => false

/-- The next bytes of a tile as its fill reads them: those that a locked source held at the job's registration, else those that stand (R184,
R187). -/
def State.fillData (s : State) (j : Job) (w : Weights) (o n : Nat) : List Host.Cell :=
  match j.kind with
  | .stream _ _ _ _ (some tile) => tile.filter fun x => o ≤ x.1 && x.1 < o + n
  | _ => runData s.mem o [(w.pa + o, n)]

/-- PLANE_FILL_COMPLETE: the fill reads its next 2 KiB, in ascending address order (R184, R185); with the last of them the shadow plane
holds the tile, and the tile's lock is released (R180, R186). A plane whose tile no longer stands as it was read is stale (R188). -/
def execPlaneFillComplete (cl : Nat) (s : State) : Out :=
  let u := (s.cluster cl).unit
  match u.granted, u.shadow with
  | some j, some p =>
    if !u.filling then .next s
    else if s.fillHeld cl p.w u.filled then s.again (.planeFillComplete cl)
    else
      let size := tileBytes p.w.t
      let n := min fillBytes (size - u.filled)
      let bad := if p.bad.isSome then none else s.firstFailing (p.w.pa + u.filled) n
      let now := s.fillData j p.w u.filled n
      let stale := p.stale || now != runData s.mem u.filled [(p.w.pa + u.filled, n)]
      let q := { p with data := p.data ++ now, bad := p.bad <|> bad, stale := stale }
      let last := size ≤ u.filled + n
      let s1 := s.setUnit cl { u with filling := !last, filled := u.filled + n, shadow := some q }
      let s2 := match bad with
        | some pa => s1.memoryError (cl / 128) j.tenant 2 pa (mkCid j.who.core j.who.slot)
        | none => s1.noteReads ((List.range n).map (p.w.pa + u.filled + ·))
      .next (if last then (s2.releaseLocks (cl / 128) (j.id + 1)).post (.jobStart cl) else s2.post (.planeFillComplete cl))
  | _, _ => .next s

/-- JOB_START: the granted job starts once the one before it has ended and its fill is over; the planes swap, and as a job starts
streaming grant() is called (R184). -/
def execJobStart (cl : Nat) (s : State) : Out :=
  let u := (s.cluster cl).unit
  match u.granted with
  | none => .next s
  | some j =>
    if u.filling || u.running.isSome then .next s
    else
      let plane := if j.streams && u.shadow.isSome then u.shadow else u.plane
      let s1 := s.setUnit cl { u with granted := none, running := some j, row := 0, plane := plane, shadow := none }
      .next (if j.streams then (s1.post (.rowUpdate cl)).grantNext cl else s1.post (.zeroWriteRow cl))

/-- The next row of the running job; with the last one the lock of the activation rows is released and the job ends
(R186). -/
def State.nextRow (s : State) (cl : Nat) (j : Job) (e : Event) : State :=
  let u := (s.cluster cl).unit
  let s1 := s.setUnit cl { u with row := u.row + 1 }
  if u.row + 1 < j.count then s1.post e else (s1.releaseLocks (cl / 128) j.id).post (.jobEnd cl)

/-- The address of a byte at an offset of runs of bytes. -/
def runByte : List (Nat × Nat) → Nat → Pa
  | [], _ => 0
  | (a, n) :: r, o => if o < n then a + o else runByte r (o - n)

/-- ROW_UPDATE: one activation row's whole addition, with the row as it stood at the job's registration; a row whose data failed is
unchanged and marked (R178, R180, R187). -/
def execRowUpdate (cl : Nat) (s : State) : Out :=
  let c := s.cluster cl
  let u := c.unit
  match u.running, u.plane with
  | some j, some p =>
    match j.kind with
    | .stream rows w acts data _ =>
      let n := columnBytes w.t
      let pas := (List.range n).map fun o => runByte rows (u.row * n + o)
      let row := j.start + u.row
      match pas.find? s.failing with
      | some pa =>
        let s1 := s.memoryError (cl / 128) j.tenant 2 pa (mkCid j.who.core j.who.slot)
        .next ((s1.setCluster cl ((s1.cluster cl).markRow j.tile.toNat row true)).nextRow cl j (.rowUpdate cl))
      | none =>
        if p.bad.isSome then
          .next ((s.setCluster cl (c.markRow j.tile.toNat row true)).nextRow cl j (.rowUpdate cl))
        else
          let bs := ((List.range n).map fun o => memGet data (u.row * n + o)).toArray
          let sa := fun q => (fmtOf 12).value (acts.getD (8 * u.row + q) 0).toNat
          .next (((s.setCluster cl (c.addRow { p with w := w } j.tile.toNat row (fun o => bs.getD o 0) sa)).noteReads pas).nextRow cl j
            (.rowUpdate cl))
    | _ => .next s
  | _, _ => .next s

/-- ZERO_WRITE_ROW: one row of an MZERO or the row of an MWRITE; its mark is cleared (R179, R180). -/
def execZeroWriteRow (cl : Nat) (s : State) : Out :=
  let c := s.cluster cl
  match c.unit.running with
  | none => .next s
  | some j =>
    let tile := j.tile.toNat
    let row := j.start + c.unit.row
    match j.kind with
    | .stream _ _ _ _ _ => .next s
    | .zero =>
      .next ((s.setCluster cl ((c.setRow tile row ((List.range 256).map fun e => (e, 0))).markRow tile row false)).nextRow cl j
        (.zeroWriteRow cl))
    | .write es => .next ((s.setCluster cl ((c.setRow tile row es).markRow tile row false)).nextRow cl j (.zeroWriteRow cl))

/-- JOB_END: the granted job can start, or the unit is idle and calls grant() (R184). -/
def execJobEnd (cl : Nat) (s : State) : Out :=
  let u := (s.cluster cl).unit
  match u.running with
  | none => .next s
  | some j =>
    if u.row < j.count then .next s
    else
      let s1 := s.setUnit cl { u with running := none }
      .next (if u.granted.isSome then s1.post (.jobStart cl) else s1.grantNext cl)

/-- Cycles until gphase of a die has a value. -/
def State.untilPhase (s : State) (die x : Nat) : Nat := (x + 16384 - s.gphase die) % 16384

/-- GRANARY_REFRESH: the time has come at which a bank's refresh starts (R185). -/
def execGranaryRefresh (die : Nat) (bank : Nat) (s : State) : Out :=
  .next ((s.pass (s.untilPhase die (bank % 64 * 256))).post (.granaryRefreshEnd die bank))

/-- GRANARY_REFRESH_END: the time has come at which the refresh of a bank that is in it ends (R185). -/
def execGranaryRefreshEnd (die : Nat) (bank : Nat) (s : State) : Out :=
  .next (if s.refreshing die bank then s.pass (s.untilPhase die (bank % 64 * 256 + 128)) else s)

end Sys2Proof.Machine
end

