-- ==== Sys2Proof/Machine/VQueue.lean ====
section
/-!
DEFINITION. The vector queue's execution and the vector length (R112 to R114, R118).
-/

namespace Sys2Proof.Machine

/-- What an instruction that may stand in the queue computes (R118). -/
def vecSem (i : Instr) : Option VSem :=
  match i with
  | .vadd o => some (vaddSem o)
  | .vsub o => some (vsubSem o)
  | .vmul o => some (vmulSem o)
  | .vmulh o => some (vmulhSem o)
  | .vdiv o => some (vdivSem o)
  | .vrem o => some (vremSem o)
  | .vand o => some (vandSem o)
  | .vor o => some (vorSem o)
  | .vxor o => some (vxorSem o)
  | .vshl o => some (vshlSem o)
  | .vshr o => some (vshrSem o)
  | .vsra o => some (vsraSem o)
  | .vmin o => some (vminSem o)
  | .vmax o => some (vmaxSem o)
  | .vsadd o => some (vsaddSem o)
  | .vssub o => some (vssubSem o)
  | .vfadd o => some (vfaddSem o)
  | .vfsub o => some (vfsubSem o)
  | .vfmul o => some (vfmulSem o)
  | .vfdiv o => some (vfdivSem o)
  | .vfsqrt o => some (vfsqrtSem o)
  | .vfmin o => some (vfminSem o)
  | .vfmax o => some (vfmaxSem o)
  | .vfabs o => some (vfabsSem o)
  | .vffma o => some (vffmaSem o)
  | .vffms o => some (vffmsSem o)
  | .vfnma o => some (vfnmaSem o)
  | .vfrcp o => some (vfrcpSem o)
  | .vfrsq o => some (vfrsqSem o)
  | .vfrcps o => some (vfrcpsSem o)
  | .vfrsqs o => some (vfrsqsSem o)
  | .vfexp2 o => some (vfexp2Sem o)
  | .vcvt o => some (vconvert false o)
  | .vcvts o => some (vconvert true o)
  | .vqblk o => some (vqblkSem o)
  | .veq o => some (veqSem o)
  | .vne o => some (vneSem o)
  | .vlt o => some (vltSem o)
  | .vle o => some (vleSem o)
  | .vgt o => some (vgtSem o)
  | .vge o => some (vgeSem o)
  | .vfeq o => some (vfeqSem o)
  | .vflt o => some (vfltSem o)
  | .vfle o => some (vfleSem o)
  | .vfunord o => some (vfunordSem o)
  | .vmv o => some (vmvSem o)
  | .vmvs o => some (vmvsSem o)
  | .vmvx o => some (vmvxSem o)
  | .vmerge o => some (vmergeSem o)
  | .vidx o => some (vidxSem o)
  | .vsow o => some (vsowSem o)
  | .vredsum o => some (vreduce o .sum false)
  | .vredosum o => some (vreduce o .sum true)
  | .vredmin o => some (vreduce o .min false)
  | .vredmax o => some (vreduce o .max false)
  | .vredand o => some (vreduce o .and false)
  | .vredor o => some (vreduce o .or false)
  | .vscansum o => some (vscan o .sum)
  | .vscanmin o => some (vscan o .min)
  | .vscanmax o => some (vscan o .max)
  | .vgather o => some (vgatherSem o)
  | .vslideup o => some (vslideupSem o)
  | .vslidedn o => some (vslidednSem o)
  | .vcompress o => some (vcompressSem o)
  | .vcidx o => some (vcidxSem o)
  | .mand d a b => some (mandSem d a b)
  | .mor d a b => some (morSem d a b)
  | .mxor d a b => some (mxorSem d a b)
  | .mandn d a b => some (mandnSem d a b)
  | .mnot d a => some (mnotSem d a)
  | .mpopc d a => some (mpopcSem d a)
  | .mfirst d a => some (mfirstSem d a)
  | .mfromv d a => some (mfromvSem d a)
  | .msetvl d a => some (msetvlSem d a)
  | .mclr d => some (mclrSem d)
  | _ => none

/-- The registers changed by a vector instruction of the executing chunk, or by one of the chunk that waits, which comes before every
instruction of the executing one (R118, R250). -/
def Core.vectorDone (c : Core) (early : Bool) (f : Co → Co) : Core :=
  if early then
    { c with
      co := f c.co
      chunk := { c.chunk with start := f c.chunk.start }
      waiting := c.waiting.map fun k => { k with back := k.back.map f } }
  else { c with co := f c.co }

/-- The chunk that waits executes again at its last instruction, and the later one is discarded: the registers are those before that instruction
(R250). -/
def State.backUp (s : State) (g : CoreId) : State :=
  match (s.core g).waiting with
  | none => s
  | some k =>
    let s1 := s.undo g false
    let c := s1.core g
    let co := k.back.getD c.chunk.start
    s1.setCore g { c with co := co, chunk := { k with after := none, back := none, since := none }, waiting := none, vq := [] }

/-- The first entry of the queue reads a register of a core that holds an uncorrectable error: its chunk is squashed, or cause 8 raised at that
chunk's first head (R367). -/
def State.queueError (s : State) (g : CoreId) (e : VEntry) (file n : Nat) : Out :=
  let again := s.again (.vectorQueueExecute g)
  if !e.early && (s.core g).waiting.isSome then again
  else
    let s1 := if e.early then s.backUp g else s
    let s2 := { s1.setCore g { s1.core g with vq := [] } with focus := g }
    if s2.trapReady then .next (s2.registerError file n) else again

/-- The first entry of the queue, a read of a row: with its chunk's commit, once the row is ready and nothing else holds the commit (R189,
R193). -/
def State.queueLoad (s : State) (g : CoreId) (e : VEntry) (r : RowRead) (rest : List VEntry) : Out :=
  let c := s.core g
  let row := e.a.toNat
  match c.waiting with
  | none => .next (s.setCore g { c with vq := rest })
  | some k =>
    if s.rowHeld g r row e.vl.toNat || s.weirHolds g k then s.again (.vectorQueueExecute g)
    else if !s.mmioStands k then .next (s.undo g true)
    else if (s.cluster (clusterOf g)).badRows.contains (r.tile * 128 + row) then
      .next ({ s.backUp g with focus := g }.markedRow (clusterOf g) r.tile row)
    else
      let f := fun (co : Co) => co.afterEntry (s.rowPut g r row (co.asCaptured e))
      .next ((s.setCore g { c.vectorDone true f with vq := rest }).commitWaiting g k)

/-- The first entry of the queue, an MWRITE: its source is read, which the job of its chunk's commit writes (R179). -/
def State.queueStore (s : State) (g : CoreId) (e : VEntry) (a : Reg) (t : BitVec 4) (rest : List VEntry) : Out :=
  let c := s.core g
  if c.ext.holds (fun _ => writeTouch a t (c.co.asCaptured e)) [] then s.again (.vectorQueueExecute g)
  else match c.ext.badVector [a] [] with
  | some (f, n) => s.queueError g e f n
  | none =>
    let r := (c.co.asCaptured e).writeRow a.toNat t.toNat
    let c1 := { c.vectorDone true (·.orFlags r.2) with vq := rest }
    .next (s.setCore g { c1 with waiting := c1.waiting.map fun k => { k with after := match k.after with
      | some (.job _ x start count) => some (.job (.write r.1) x start count)
      | y => y } })

/-- The first entry of the queue computes in registers (R118). -/
def State.queueCompute (s : State) (g : CoreId) (e : VEntry) (m : VSem) (rest : List VEntry) : Out :=
  let c := s.core g
  if m.held e c.co c.ext then s.again (.vectorQueueExecute g)
  else match c.ext.badVector m.vsrc m.msrc with
  | some (f, n) => s.queueError g e f n
  | none =>
    let f := fun (co : Co) =>
      let r := m.execute e co
      match m.dst with
      | some d => r.1.wr d r.2
      | none => r.1
    .next (s.setCore g { c.vectorDone e.early f with vq := rest })

/-- VECTOR_QUEUE_EXECUTE: the queue's first instruction executes, unless something that it touches is pending (R118, R193). -/
def execVectorQueueExecute (g : CoreId) (s : State) : Out :=
  let c := s.core g
  match c.vq with
  | [] => .next s
  | e :: rest =>
    match vecSem e.ins, rowRead e.ins with
    | some m, _ => s.queueCompute g e m rest
    | none, some r => s.queueLoad g e r rest
    | none, none => match e.ins with
      | .mwrite _ a _ t => s.queueStore g e a t rest
      | _ => .next (s.setCore g { c with vq := rest })

/-! ### SETVL and SETVLHW (R112 to R114) -/

/-- A change of D waits for the queue and for pending element groups (R113). -/
def State.reshape (s : State) (dc : BitVec 2) (k : State → Out) : Out :=
  if dc.toNat ≠ vtDc s.co.vtype ∧ (!s.cur.vq.isEmpty || s.ext.vpend != [] || s.ext.cpend != []) then .next s.stall else k s

/-- SETVL (R112). -/
def execSetvl (d a : Reg) (dc : BitVec 2) (t : BitVec 4) (s : State) : Out :=
  s.issue [a] [d] fun s =>
    s.reshape dc fun u => (u.setCo (u.co.withVl d dc t (Nat.min (s.rd a).toNat (vlmaxOf t dc)))).finish

/-- SETVLHW: the address is checked first, whatever avl is; with the chunk committed the home is asked for a snapshot (R114, R230, R380).
Until it answers, the instruction has changed nothing (DEDUCED, log 23). -/
def execSetvlhw (d a b : Reg) (dc : BitVec 2) (t : BitVec 4) (s : State) : Out :=
  s.issue [a, b] [d] fun s =>
    let va := s.rd b
    let avl := s.rd a
    s.access (s.wordTarget .load false va) fun u pa => u.reshape dc fun u =>
      if avl = 0 then s.ends (u.setCo (u.co.withVl d dc t 0))
      else if !u.cur.vq.isEmpty then .next u.stall
      else match u.commit s.focus with
        | none => .next (s.notYet u)
        | some x =>
          let c := x.cur
          let k := c.running.getD 0
          let x1 := x.setCur (c.setSlot k { c.slot k with wait := .strip pa va d dc t avl, live := 0, head := s.co.pc })
          .next ((x1.post (.tokenSnapshot x.who)).stall)

end Sys2Proof.Machine
end

