-- ==== Sys2Proof/Machine/VMem.lean ====
section
/-!
DEFINITION. Vector loads and stores, VXLATE and the combining atomics (R131 to R152).
-/

namespace Sys2Proof.Machine

/-! ### Elements one after another (R133, R138, R142) -/

/-- What working through the elements comes to: all done, a fault at an element, the end of the chunk before one, or a wait. -/
inductive VEnd where
  | done (s : State)
  | trap (s : State) (i : Nat) (t : Trap)
  | cut (s : State) (i : Nat)
  | wait (s : State) (i : Nat)

/-- The state with what another one, further on, has counted and has looked at: the lines and pages that its chunk depends on (R152, R249,
R307). -/
def State.looked (s s' : State) : State :=
  let t := s.counted s'
  let k := s'.cur.chunk
  t.setChunk { t.cur.chunk with reads := k.reads, pages := k.pages }

/-- The elements in order; one that cannot complete leaves nothing of itself but what it has looked at (R138, R152). -/
def State.elements (s : State) (f : State → Nat → Acc Unit) : List Nat → VEnd
  | [] => .done s
  | i :: r =>
    match f s i with
    | .ok s' _ => s'.elements f r
    | .trap s' t => .trap (s.looked s') i t
    | .cut => .cut s i
    | .wait => .wait s i
    | .walk va => .wait (s.awaitWalk s.co.asid va) i

/-- The n bytes of a field loaded (R135 to R139). -/
def State.loadField (s : State) (va : Word) (n : Nat) : Acc (List Byte) :=
  (s.target .load false va n).bind fun t segs =>
    t.readSegs va segs

/-- The bytes of a field stored, by an instruction that writes the bytes that covers names. -/
def State.storeField (s : State) (covers : Word → Bool) (va : Word) (bs : List Byte) : Acc Unit :=
  (s.target .store false va bs.length).bind fun t segs => t.writeCovered covers va segs bs

/-- One nibble stored: the other half of its byte keeps its value (R134). -/
def State.storeNibble (s : State) (covers : Word → Bool) (va : Word) (i x : Nat) : Acc Unit :=
  (s.target .store false va 1).bind fun t segs =>
    let pa := (segs.headD ⟨0, 0, false⟩).pa
    if remote (pkgOf s.focus) segs then
      let c := t.cur.chunk
      let ev := Event.remoteWriteAtHome s.who pa 0 (i % 2 * 16 + x) ⟨s.co.tenant, 0, []⟩
      .ok (t.setChunk { c with posts := c.posts ++ [⟨ev, paPkg pa, pa, 1⟩] }) ()
    else t.writeCovered covers va segs [putNibble (t.cur.byte t.mem pa) i x]

/-! ### VLD and VST (R131 to R134) -/

/-- A vector load or store: its registers, width, number of fields, and the address of each field from the captured scalars. -/
structure VMemOp where
  o     : V32
  store : Bool
  n     : Nat
  index : List Reg
  rs    : List Reg
  addr  : Word → Word → Co → Nat → Nat → Word

/-- The width of an element in bits. -/
def VMemOp.w (m : VMemOp) : Nat := tyWidth m.o.t.toNat

/-- The data registers. -/
def VMemOp.data (m : VMemOp) : List Reg := (List.range m.n).map fun f => m.o.d + BitVec.ofNat 5 f

/-- The checks at issue (R70, R117, R132). -/
def VMemOp.ok (m : VMemOp) (c : Co) : Bool :=
  m.o.sameWidth c && m.o.d.toNat + m.n ≤ c.nregs && c.regsOk m.index &&
    (m.index.isEmpty || c.vl.toNat ≤ vlmaxW 64 c.nregs)

/-- The element groups that it touches. -/
def VMemOp.touch (m : VMemOp) (grp : Option (BitVec 65536)) (c : Co) : List (Nat × Nat) :=
  (c.active grp m.o).flatMap fun i => (m.data.map fun r => groupAt m.w r i) ++ m.index.map fun r => groupAt 64 r i

/-- The fields of an element loaded, from field f on. -/
def State.loadFields (s : State) (m : VMemOp) (a b : Word) (i f : Nat) : Nat → Acc (List (List Byte))
  | 0 => .ok s []
  | k + 1 =>
    (s.loadField (m.addr a b s.co i f) (Nat.max 1 (m.w / 8))).bind fun t x =>
      (t.loadFields m a b i (f + 1) k).bind fun u r => .ok u (x :: r)

/-- The instruction writes the whole byte at an address: fields of its active elements do, in f4 both halves (R134). -/
def VMemOp.covers (m : VMemOp) (c : Co) (grp : Option (BitVec 65536)) (a b : Word) (va : Word) : Bool :=
  let l := c.active grp m.o
  if m.w = 4 then (l.any fun i => i % 2 = 0 && m.addr a b c i 0 == va) && l.any fun i => i % 2 = 1 && m.addr a b c i 0 == va
  else l.any fun i => (List.range m.n).any fun f => (va - m.addr a b c i f).toNat < m.w / 8

/-- The fields of an element stored, from field f on. -/
def State.storeFields (s : State) (m : VMemOp) (covers : Word → Bool) (a b : Word) (i f : Nat) : Nat → Acc Unit
  | 0 => .ok s ()
  | k + 1 =>
    let x := s.co.elem (m.o.d.toNat + f) m.w i
    let va := m.addr a b s.co i f
    (if m.w = 4 then s.storeNibble covers va i x else s.storeField covers va (leBytes (m.w / 8) x)).bind fun t _ =>
      t.storeFields m covers a b i (f + 1) k

/-- A number loaded for element i: the whole bytes, or one nibble (R134). -/
def VMemOp.value (m : VMemOp) (i : Nat) (bs : List Byte) : Nat := if m.w = 4 then leNat bs / 16 ^ (i % 2) % 16 else leNat bs

/-- One element, wholly or not at all (R133). grp selects the elements of a VISSUE group. -/
def VMemOp.element (m : VMemOp) (grp : Option (BitVec 65536)) (a b : Word) (s : State) (i : Nat) : Acc Unit :=
  if m.store then s.storeFields m (m.covers s.co grp a b) a b i 0 m.n
  else (s.loadFields m a b i 0 m.n).bind fun t bss =>
    .ok (t.setCo ((bss.zipIdx).foldl (fun c x => c.setElem (m.o.d.toNat + x.2) m.w i (m.value i x.1)) t.co)) ()

/-- The elements of an instruction or of a VISSUE group that are still to do. -/
def Co.toDo (c : Co) (grp : Option (BitVec 65536)) (o : V32) : List Nat := (c.active grp o).filter (c.cont ≤ ·)

/-- One more of the chunk's 64 vector memory instructions; vstart is 0 again (R133, R141). -/
def State.memoryDone (s : State) : State :=
  let c := s.cur
  s.setCur { c with co := { c.co with vstart := 0, cont := 0, table := none }, chunk := { c.chunk with vmem := c.chunk.vmem + 1 } }

/-- The instruction stops before element i of those to do, with the ones below it done in t, until its chunk has ended or until something
has happened (R142); before its first element it has done nothing. -/
def State.paused (s t : State) (todo : List Nat) (i : Nat) : State :=
  if todo.head? = some i then s else t.setCo { t.co with cont := i }

/-- The fault of element i: vstart names it, and the trap is at the instruction's own head (R138). -/
def State.elementTrap (s : State) (i : Nat) (t : Trap) : State :=
  (s.setCo { s.co with vstart := BitVec.ofNat 17 i, cont := 0, table := none }).takeTrap t s.co.pc

/-- What every vector memory instruction does before its first element: the checks, the queue, the registers, the chunk's
count (R70, R118, R141, R248). -/
def State.vectorMemory (s : State) (i : Instr) (ok : Bool) (rs ws : List Reg) (vs : List Reg) (ms : List (BitVec 3))
    (touch : Co → List (Nat × Nat)) (masks : List (BitVec 3)) (k : State → Out) : Out :=
  if !ok then s.illegal i
  else s.issue rs ws fun s =>
    if !s.cur.vq.isEmpty then .next s.stall
    else s.vread vs ms <|
      if s.ext.holds (fun _ => touch s.co) masks then .next s.stall
      else if 64 ≤ s.cur.chunk.vmem then .next s.cutChunk
      else k s

/-- The elements to do, in order, and what then becomes of the instruction (R133, R138, R142). -/
def State.inOrder (s : State) (f : State → Nat → Acc Unit) (todo : List Nat) (onTrap : State → Nat → Trap → Out) : Out :=
  match s.elements f todo with
  | .done t => t.memoryDone.finish
  | .trap t i e => onTrap t i e
  | .cut t i => .next (s.paused t todo i).cutChunk
  | .wait t i => .next (s.paused t todo i).stall

/-- A vector load or store (R133, R138, R142). -/
def State.vmem (s : State) (i : Instr) (m : VMemOp) (onTrap : State → Nat → Trap → Out) : Out :=
  s.vectorMemory i (m.ok s.co) m.rs [] (m.index ++ if m.store then m.data else []) m.o.mask (m.touch none) m.o.mask fun s =>
    s.inOrder (m.element none (s.rd m.o.a) (s.rd m.o.b)) (s.co.toDo none m.o) onTrap

/-- A fault that is taken at its element (R138). -/
def faultAt (s : State) (i : Nat) (t : Trap) : Out := .next (s.elementTrap i t)

/-- A data error that trims and traps nothing, of which the commit posts the record (R366). -/
def State.trimRecord (s : State) (t : Trap) : State :=
  match t.bad with
  | some pa => s.setChunk { s.cur.chunk with errors := s.cur.chunk.errors ++ [pa] }
  | none => s

/-- The elements below i are loaded and vl becomes i (R140, R151). -/
def State.trimAt (s : State) (i : Nat) : Out :=
  ((s.setCo { s.co with vl := BitVec.ofNat 17 i }).memoryDone).finish

/-- VLDFF: a fault above the lowest active element trims vl (R140). -/
def trimFault (o : V32) (s : State) (i : Nat) (t : Trap) : Out :=
  if (s.co.active none o).headD i = i then .next (s.elementTrap i t) else (s.trimRecord t).trimAt i

/-- The address of field f of element i at unit stride, n fields an element (R131, R134). -/
def unitAddr (w n : Nat) (a _ : Word) (_ : Co) (i f : Nat) : Word := a + BitVec.ofNat 64 ((i * n + f) * w / 8)

/-- The address of element i at a signed stride (R131). -/
def strideAddr (a b : Word) (_ : Co) (i _ : Nat) : Word := a + BitVec.ofNat 64 i * b

/-- The address of element i by its index, element i of v[B] at width 64 (R132). -/
def indexAddr (o : V32) (a _ : Word) (c : Co) (i _ : Nat) : Word := a + BitVec.ofNat 64 (c.elem o.b.toNat 64 i)

/-- The unit-stride and segment forms. -/
def unitOp (o : V32) (store : Bool) (n : Nat) : VMemOp := ⟨o, store, n, [], [o.a], unitAddr (tyWidth o.t.toNat) n⟩
/-- The strided forms. -/
def stridedOp (o : V32) (store : Bool) : VMemOp := ⟨o, store, 1, [], [o.a, o.b], strideAddr⟩
/-- The indexed forms. -/
def indexedOp (o : V32) (store : Bool) : VMemOp := ⟨o, store, 1, [o.b], [o.a], indexAddr o⟩

/-- VLD (R133). -/
def execVld (o : V32) (s : State) : Out := s.vmem (.vld o) (unitOp o false 1) faultAt
/-- VLDS (R133). -/
def execVlds (o : V32) (s : State) : Out := s.vmem (.vlds o) (stridedOp o false) faultAt
/-- VLDX (R133). -/
def execVldx (o : V32) (s : State) : Out := s.vmem (.vldx o) (indexedOp o false) faultAt
/-- VLDSEG (R133). -/
def execVldseg (o : V32) (n : BitVec 3) (s : State) : Out := s.vmem (.vldseg o n) (unitOp o false (n.toNat + 1)) faultAt
/-- VLDFF (R140). -/
def execVldff (o : V32) (s : State) : Out := s.vmem (.vldff o) (unitOp o false 1) (trimFault o)
/-- VST (R133). -/
def execVst (o : V32) (s : State) : Out := s.vmem (.vst o) (unitOp o true 1) faultAt
/-- VSTS (R133). -/
def execVsts (o : V32) (s : State) : Out := s.vmem (.vsts o) (stridedOp o true) faultAt
/-- VSTX (R133). -/
def execVstx (o : V32) (s : State) : Out := s.vmem (.vstx o) (indexedOp o true) faultAt
/-- VSTSEG (R133). -/
def execVstseg (o : V32) (n : BitVec 3) (s : State) : Out := s.vmem (.vstseg o n) (unitOp o true (n.toNat + 1)) faultAt

/-! ### VXLATE (R148 to R152) -/

/-- The header, read once: at the first active element (R150). A table that is not 64-byte aligned cannot be read. -/
def State.readHead (s : State) (tab : Word) : Acc TableRead :=
  match s.co.table with
  | some h => .ok s h
  | none =>
    if tab.toNat % 64 ≠ 0 then .trap s ⟨5, tab, 0, none⟩
    else (s.loadField tab 8).bind fun s len =>
      (s.loadField (tab + 8) 2).bind fun s logs =>
        (s.loadField (tab + 0x18) 8).bind fun s nent =>
          let h : TableRead := ⟨leNat len, leNat (logs.take 1), leNat (logs.drop 1), leNat nent, []⟩
          .ok (s.setCo { s.co with table := some h }) h

/-- Entry k, read at most once (R150). -/
def State.readEntry (s : State) (tab : Word) (h : TableRead) (k : Nat) : Acc Word :=
  match h.entries.find? (·.1 == k) with
  | some x => .ok s x.2
  | none =>
    (s.loadField (tab + BitVec.ofNat 64 (0x40 + 8 * k)) 8).bind fun s e =>
      let w := BitVec.ofNat 64 (leNat e)
      .ok (s.setCo { s.co with table := some { h with entries := h.entries ++ [(k, w)] } }) w

/-- An entry of a table is not near or is moving (R148, R150). -/
def entryAway (e : Word) : Bool := field e 61 3 != 0

/-- The address of a position: bits [57:0] of the block's address and the offset, in the alias window (R150). -/
def positionAddr (h : TableRead) (e : Word) (p : Nat) : Word :=
  BitVec.ofNat 64 (0xFC00000000000000 + (field e 0 58 + p % 2 ^ h.lpb * 2 ^ h.lbp) % 2 ^ 58)

/-- A position translated: none where it is bad (R150). -/
def State.position (s : State) (tab : Word) (p : Nat) : Acc (Option Word) :=
  (s.readHead tab).bind fun s h =>
    if h.len ≤ p ∨ 32 < h.lpb ∨ 24 < h.lbp ∨ h.nent ≤ p / 2 ^ h.lpb then .ok s none
    else (s.readEntry tab h (p / 2 ^ h.lpb)).bind fun s w =>
      .ok s (if entryAway w then none else some (positionAddr h w p))

/-- Element i of VXLATE (R150). -/
def State.xlateElement (o : V32) (tab : Word) (s : State) (i : Nat) : Acc Unit :=
  (s.position tab (s.co.elem o.b.toNat 64 i)).bind fun s r =>
    let c := s.co.mput (o.c.setWidth 3) [(i, r.isNone)]
    .ok (s.setCo (c.setElem o.d.toNat 64 i (r.getD 0).toNat)) ()

/-- Element i of VXLATEFF: a bad position ends the walk as a fault does, with nothing of it written (R151). -/
def State.xlateffElement (o : V32) (tab : Word) (s : State) (i : Nat) : Acc Unit :=
  (s.position tab (s.co.elem o.b.toNat 64 i)).bind fun s r =>
    match r with
    | none => .trap s ⟨5, tab, 0, none⟩
    | some w =>
      let c := s.co.mput (o.c.setWidth 3) [(i, false)]
      .ok (s.setCo (c.setElem o.d.toNat 64 i w.toNat)) ()

/-- The two forms (R149 to R151). -/
def State.vxlate (s : State) (i : Instr) (o : V32) (elem : Word → State → Nat → Acc Unit) (onTrap : State → Nat → Trap → Out) : Out :=
  s.vectorMemory i (s.co.width == 64 && s.co.regsOk [o.d, o.b]) [o.a] [] [o.b] o.mask
    (fun c => (c.active none o).flatMap fun i => [groupAt 64 o.d i, groupAt 64 o.b i]) (o.c.setWidth 3 :: o.mask) fun s =>
    s.inOrder (elem (s.rd o.a)) (s.co.toDo none o) onTrap

/-- VXLATE (R150). -/
def execVxlate (o : V32) (s : State) : Out := s.vxlate (.vxlate o) o (State.xlateElement o) faultAt

/-- VXLATEFF: bit f of m[C] is set and vl becomes f at the first bad position (R151). -/
def execVxlateff (o : V32) (s : State) : Out :=
  s.vxlate (.vxlateff o) o (State.xlateffElement o) fun t i e =>
    ((t.trimRecord e).setCo (t.co.mput (o.c.setWidth 3) [(i, true)])).trimAt i

/-! ### Combining atomics (R144 to R147) -/

/-- An address of the list with its value so far and the first element that named it. -/
structure Combined where
  va    : Word
  pa    : Pa
  val   : Nat
  first : Nat
  deriving DecidableEq, Repr

/-- The operation that F names. -/
def vamoOp (f : Nat) : Red :=
  match f with
  | 0 => .sum
  | 1 => .min
  | 2 => .max
  | _ => .or

/-- One more element combined into the list: one rounding at its index, or a new address at the end (R145). -/
def combine (op : Red) (t : Nat) (rnd : Nat → Rnd) (va : Word) (pa : Pa) (x i : Nat) : List Combined → List Combined × BitVec 5
  | [] => ([⟨va, pa, x, i⟩], 0)
  | e :: r =>
    if e.va = va then
      let y := op.apply t (rnd i) e.val x
      ({ e with val := y.1 } :: r, y.2)
    else
      let y := combine op t rnd va pa x i r
      (e :: y.1, y.2)

/-- The list built from the elements in order, up to the first that faults, or that waits for the walker at an address (R145, R305). -/
def State.gather (s : State) (op : Red) (o : V32) (base : Word) :
    List Nat → List Combined → State × List Combined × Option (Nat × Except Word Trap)
  | [], l => (s, l, none)
  | i :: r, l =>
    let n := tyWidth o.t.toNat / 8
    let va := base + BitVec.ofNat 64 (s.co.elem o.b.toNat 64 i)
    if va.toNat % n ≠ 0 then (s, l, some (i, .ok ⟨6, va, 0, none⟩))
    else match s.target .store false va n with
      | .ok t segs =>
        let y := combine op o.t.toNat (fun i => s.co.rnd o.rm.toNat i) va (segs.headD ⟨0, 0, false⟩).pa
          (s.co.elem o.c.toNat (tyWidth o.t.toNat) i) i l
        (t.setCo (t.co.orFlags y.2)).gather op o base r y.1
      | .trap u t => (s.counted u, l, some (i, .ok t))
      | .walk x => (s, l, some (i, .error x))
      | .cut => (s, l, some (i, .error va))
      | .wait => (s, l, some (i, .error va))

/-- The updates put into the chunk, to be sent in list order at its commit; s[D] is pending (R145 to R147). -/
def State.sendUpdates (s : State) (f : Nat) (o : V32) (l : List Combined) : State :=
  let s1 := s.setCo (s.co.setPend o.d)
  let k := s1.cur.chunk
  if l = [] then s1.setChunk { k with compl := k.compl ++ [(o.d, completionWord 0 0)] }
  else
    let c := s.co
    let rm : BitVec 3 := BitVec.ofNat 3 (c.rnd o.rm.toNat 0).rm
    let ps := l.map fun e =>
      (⟨.vamoUpdateAtHome s.who s.ids e.pa (BitVec.ofNat 6 f) o.t e.val rm c.seed c.sbase e.first ⟨c.tenant, 0, []⟩, paPkg e.pa,
        e.pa, tyWidth o.t.toNat / 8⟩ : Post)
    let s2 := { s1.setChunk { k with posts := k.posts ++ ps } with ids := s.ids + 1 }
    s2.setExt { s2.ext with vamos := s2.ext.vamos ++ [⟨s.ids, o.d, l.length, 0, false⟩] }

/-- A combining atomic; the updates below a faulting element are sent as the trap commits the chunk (R145 to R147). -/
def State.vamo (s : State) (i : Instr) (f : Nat) (o : V32) : Out :=
  let c := s.co
  if !(o.sameWidth c && c.regsOk [o.b, o.c] && c.vl.toNat ≤ vlmaxW 64 c.nregs) then s.illegal i
  else s.issue [o.a] [o.d] fun s =>
    if !s.cur.vq.isEmpty then .next s.stall
    else s.vread [o.b, o.c] o.mask <|
      if s.ext.holds (fun _ => (s.co.active none o).flatMap fun i => [groupAt 64 o.b i, groupAt c.width o.c i]) o.mask then
        .next s.stall
      else
        let r := s.gather (vamoOp f) o (s.rd o.a) (s.co.active none o) []
        match r.2.2 with
        | none => s.ends ((r.1.setCo { r.1.co with vstart := 0 }).sendUpdates f o r.2.1)
        | some (_, .error va) => .next (s.awaitWalk s.co.asid va)
        | some (i, .ok t) =>
          let u := r.1.sendUpdates f o r.2.1
          .next (if u.trapReady then u.elementTrap i t else s.notYet u)

/-- VAADD (R145). -/
def execVaadd (o : V32) (s : State) : Out := s.vamo (.vaadd o) 0 o
/-- VAMIN (R145). -/
def execVamin (o : V32) (s : State) : Out := s.vamo (.vamin o) 1 o
/-- VAMAX (R145). -/
def execVamax (o : V32) (s : State) : Out := s.vamo (.vamax o) 2 o
/-- VAOR (R145). -/
def execVaor (o : V32) (s : State) : Out := s.vamo (.vaor o) 3 o

/-- One update of a combining atomic acknowledged; the last one completes s[D] (R146). -/
def State.updateDone (s : State) (who : Who) (id n : Nat) (bad : Bool) : State :=
  let step := fun (x : Vamo) => if x.id = id then { x with left := x.left - 1, bytes := x.bytes + n, bad := x.bad || bad } else x
  let vs := ((s.extOf who).map (·.vamos.map step)).getD []
  let s1 := s.mapExt who fun e => { e with vamos := vs.filter (·.left != 0) }
  match vs.find? fun x => x.id == id && x.left == 0 with
  | some x => s1.post (.pendingRegisterCompletion who x.reg (completionWord (if x.bad then 3 else 0) x.bytes) none)
  | none => s1

/-- VAMO_UPDATE_AT_HOME: one indivisible update, its flags discarded, with the rounding of its issue (R145, R146). -/
def execVamoUpdateAtHome (who : Who) (id : Nat) (pa : Pa) (f : BitVec 6) (t : BitVec 4) (val : Nat) (rm : BitVec 3)
    (seed sbase : Word) (idx : Nat) (q : Req) (s : State) : Out :=
  let n := tyWidth t.toNat / 8
  let ack := fun ok => Event.postedWriteAcknowledged who (paPkg pa) ⟨q.seq, ok⟩
  if s.homeBusy pa || s.readBusy pa n then s.again (.vamoUpdateAtHome who id pa f t val rm seed sbase idx q)
  else if !s.admits (pkgOf who.core) q.tenant pa n then .next ((s.updateDone who id 0 true).post (ack false))
  else if s.failing pa then
    let s1 := s.memoryError (pkgOf who.core) q.tenant 2 pa (mkCid who.core who.slot)
    .next ((s1.updateDone who id 0 true).post (ack true))
  else
    let r : Rnd := ⟨rm.toNat, (sow64 (sowCtr sbase idx 255) seed).toNat⟩
    let y := (vamoOp f.toNat).apply t.toNat r (leNat (memBytes s.mem pa n)) val
    .next ((((s.noteRuns [(pa, n)]).writeHome pa (leBytes n y.1)).updateDone who id n false).post (ack true))

end Sys2Proof.Machine
end

