-- ==== Sys2Proof/Machine/Collect.lean ====
section
/-!
DEFINITION. Groups and collectives: GSET, GRANK, GSIZE (R267 to R270) and VCOLL with its packets, replies and merge
(R271 to R279).
-/

namespace Sys2Proof.Machine

/-! ### Groups (R267 to R270) -/

/-- Entries k on of a group table, n of them, read as loads of the chunk (R269). -/
def State.readMembers (s : State) (table : Word) (k : Nat) : Nat → Acc (List (BitVec 32))
  | 0 => .ok s []
  | n + 1 =>
    (s.chunkRead (table + BitVec.ofNat 64 (8 * k)) 8).bind fun t b =>
      (t.readMembers table (k + 1) n).bind fun u r => .ok u (BitVec.ofNat 32 (leNat b) :: r)

/-- A group register that GSET has set (R269). -/
def Grp.made (table : Word) (rank size : Nat) : Grp := ⟨table, 0, true, BitVec.ofNat 12 rank, BitVec.ofNat 13 size, 0⟩

/-- Another group register of the coroutine holds the same table (R269). -/
def Co.tableTaken (c : Co) (d : Nat) (table : Word) : Bool :=
  (c.g.toList.zipIdx).any fun x => x.2 != d && x.1.valid && x.1.table == table

/-- GSET: its checks in their order, then the register (R269, R270). -/
def execGset (d a b : Reg) (s : State) : Out :=
  s.issue [a, b] [] fun s =>
    let table := s.rd a
    let size := (s.rd b).toNat
    let n := d.toNat % 8
    if size = 0 ∨ 4096 < size then s.trapHere 11 2
    else if table.toNat % 64 ≠ 0 then s.trapHere 11 3
    else if s.co.tableTaken n table then s.trapHere 11 6
    else s.access (s.readMembers table 0 size) fun t ms =>
      match ms.findIdx? (· == s.co.cid) with
      | none => s.trapHere 11 4
      | some r => (t.setCo { t.co with g := t.co.g.set n (Grp.made table r size) (Nat.mod_lt _ (by decide)) }).finish

/-- GRANK: all ones where VALID = 0 (R269). -/
def execGrank (d a : Reg) (s : State) : Out :=
  s.compute d [] fun c =>
    let g := c.g[a.toNat % 8]
    if g.valid then g.rank.setWidth 64 else -1

/-- GSIZE: 0 where VALID = 0 (R269). -/
def execGsize (d a : Reg) (s : State) : Out :=
  s.compute d [] fun c =>
    let g := c.g[a.toNat % 8]
    if g.valid then g.size.setWidth 64 else 0

/-! ### What a collective computes (R273 to R275, R278) -/

/-- Width of a collective's elements. -/
def Collective.w (c : Collective) : Nat := tyWidth c.t.toNat

/-- The packets of a rank's contribution that have been taken in, its own among them. -/
def Collective.parts (c : Collective) (r : Nat) : List Packet := c.got.filter fun p => p.src == r && (p.kind == 0 || p.kind == 1)

/-- The header of a rank's contribution, which every packet of it carries. -/
def Collective.header (c : Collective) (r : Nat) : Option Packet := (c.parts r).head?

/-- A rank has been heard: all its packets are here; or it never will be (R275). -/
def Collective.heard (c : Collective) (r : Nat) : Bool :=
  c.gone.contains r || (c.header r).any fun p => (c.parts r).length == p.total

/-- The ranks of the group. -/
def Collective.ranks (c : Collective) : List Nat := List.range c.size

/-- A header differs from rank 0's in form, type, operator, or length where that is compared (R275). -/
def Collective.differs (c : Collective) (p : Packet) : Bool :=
  match c.header 0 with
  | none => false
  | some z => p.form != z.form || p.t != z.t || p.op != z.op || (z.form != 4 && p.len != z.len)

/-- A rank offends (R275). -/
def Collective.offends (c : Collective) (r : Nat) : Bool :=
  c.gone.contains r || match c.header r with
    | some p => c.differs p
    | none => false

/-- The COUNT of a mismatch that the headers show, or of a member that cannot be reached (R275). -/
def Collective.mismatch (c : Collective) : Option Nat :=
  match c.ranks.find? c.offends with
  | some r => some r
  | none => if (c.form = 1 ∨ c.form = 2) ∧ c.len % c.size ≠ 0 then some 0 else none

/-- The failure: STATUS and COUNT, or none (R275). Where several contributions carry an error, COUNT names the rank whose packet was
accepted first (DESIGN CHOICE, log 64). -/
def Collective.verdict (c : Collective) : Option (Nat × Nat) :=
  match c.mismatch with
  | some r => some (2, r)
  | none => (c.got.find? (·.bad)).map fun p => (3, p.src)

/-- Element i of a rank's contribution, where it contributes (R272). -/
def Collective.contribution (c : Collective) (r i : Nat) : Option Nat :=
  (c.parts r).findSome? fun p => (p.elems.find? (·.1 == i)).map (·.2)

/-- The rounding of element i at this member: fmode.RM, seed and sbase as its instruction issued (R46, R55, R271). -/
def Collective.rnd (c : Collective) (i : Nat) : Rnd := ⟨c.rm, (sow64 (sowCtr c.sbase i 255) c.seed).toNat⟩

/-- The operator that Y[2:0] names (R271). -/
def redOf (op : BitVec 3) : Red :=
  match op.toNat with
  | 0 => .sum
  | 1 => .min
  | 2 => .max
  | 3 => .and
  | _ => .or

/-- combine(i): the contributions folded in ascending rank (R274). -/
def Collective.combine (c : Collective) (i : Nat) : Nat × BitVec 5 :=
  match c.ranks.filterMap fun r => c.contribution r i with
  | [] => ((redOf c.op).identity c.t.toNat, 0)
  | x :: rest => chainFrom (redOf c.op) c.t.toNat c.rnd x (rest.map fun y => (i, y))

/-- Elements that one member supplies or computes where L is divided among n (R272). -/
def Collective.share (c : Collective) : Nat := c.len / c.size

/-- What the form writes: elements, values and flags (R273, R278). VALL2ALL writes every row that it has assigned, active at this member or
not (DEDUCED, log 57: R278 against the second sentence of R273). -/
def Collective.result (c : Collective) : List (Nat × Nat × BitVec 5) :=
  match c.form with
  | 0 => c.active.map fun i => (i, c.combine i)
  | 1 => (c.active.filter fun i => i / c.share == c.rank).map fun i => (i, c.combine i)
  | 2 => c.active.filterMap fun i => (c.contribution (i / c.share) i).map fun x => (i, x, 0)
  | 3 => c.active.filterMap fun i => (c.contribution 0 i).map fun x => (i, x, 0)
  | _ => (c.got.filter (·.kind == 3)).flatMap fun p => p.elems.map fun e => (e.1, e.2, 0)

/-- The elements that this member has for a rank, in ascending order (R278). -/
def Collective.forRank (c : Collective) (j : Nat) : List Nat := (c.dests.filter (·.2 == j)).map (·.1)

/-- The elements that got rows, as the replies say (R278). -/
def Collective.sent (c : Collective) : List Nat :=
  (c.got.filter (·.kind == 2)).flatMap fun p => (c.forRank p.src).take p.count

/-- The completion word (R222, R275, R278). -/
def Collective.word (c : Collective) : Word :=
  match c.verdict with
  | some (st, n) => completionWord st n
  | none => completionWord 0 (c.result.length * c.w / 8)

/-- How many rows the counts of the ranks below a rank take (R278). -/
def Collective.firstRow (c : Collective) (r : Nat) : Nat :=
  ((List.range r).filterMap fun k => (c.header k).map (·.count)).foldl (· + ·) 0

/-- First row and number of rows that a rank is assigned here; rows at or above L are not (R278). -/
def Collective.rows (c : Collective) (r : Nat) : Nat × Nat :=
  let a := c.firstRow r
  (a, min (((c.header r).map (·.count)).getD 0) (c.len - a))

/-- The rows that a rank sends have arrived: as many as are assigned to it here. -/
def Collective.rowsIn (c : Collective) (r : Nat) : Bool :=
  (((c.got.filter fun p => p.src == r && p.kind == 3).map (·.elems.length)).foldl (· + ·) 0) == (c.rows r).2

/-- Everything that this member's result needs is here, and in VALL2ALL everything that the others need of it has been sent
(R275, R278). -/
def Collective.complete (c : Collective) : Bool :=
  c.ranks.all c.heard &&
    (c.form != 4 || c.mismatch.isSome ||
      (c.replied && (c.ranks.all fun r => c.rowsIn r && c.got.any fun p => p.src == r && p.kind == 2)))

/-! ### Packets (R277) -/

/-- Element groups of 256 bytes that n elements of a width take (R69, R277). -/
def groupBytes (n w : Nat) : Nat := 256 * ceilDiv (n * w) 2048

/-- Bytes of the collective buffer in use: staging, and packets that came early (R277). -/
def Core.bufferUsed (c : Core) : Nat :=
  ((c.colls.map fun x => groupBytes x.len x.w) ++ c.packets.map fun p => groupBytes p.2.elems.length (tyWidth p.2.t.toNat)).foldl
    (· + ·) 0

/-- The packet belongs to this collective (R272). -/
def Collective.takes (c : Collective) (dst : BitVec 32) (p : Packet) : Bool :=
  c.who.slot == cidSlot dst && c.table == p.table && c.seq == p.seq

/-- The lowest rank that has not been combined (R277). -/
def Collective.next (c : Collective) : Option Nat := c.ranks.find? fun r => !c.heard r

/-- The member is ready for the packet: for the folding forms its rank is the lowest not yet combined (R277). -/
def Collective.ready (c : Collective) (p : Packet) : Bool := 1 < c.form || c.next == some p.src

/-- A collective of a core. -/
def Core.coll (c : Core) (id : Nat) : Option Collective := c.colls.find? (·.id == id)

/-- A collective of a core replaced. -/
def Core.setColl (c : Core) (x : Collective) : Core := { c with colls := c.colls.map fun y => if y.id = x.id then x else y }

/-- Elements in packets of at most k, fuel packets at most; one packet at least. -/
def slices (k : Nat) : Nat → List (Nat × Nat) → List (List (Nat × Nat))
  | 0, l => [l]
  | fuel + 1, l => if l.length ≤ k then [l] else l.take k :: slices k fuel (l.drop k)

/-- The packets of this member of a kind for a rank, with a count, a first row and elements, 256 bytes in each (R277). -/
def Collective.packets (c : Collective) (kind count first : Nat) (elems : List (Nat × Nat)) : List Packet :=
  let l := slices (2048 / max 1 c.w) elems.length elems
  l.map fun es =>
    { table := c.table, seq := c.seq, src := c.rank, off := (es.map (·.1)).headD 0, total := l.length, sender := c.who, tenant := c.tenant
      kind := kind, form := c.form, t := c.t, op := c.op, len := c.len, count := count, first := first, bad := false, elems := es }

/-- The CID of a rank (R267). -/
def Collective.member (c : Collective) (r : Nat) : BitVec 32 := c.members.getD r 0

/-- What this member sends to a rank first: a header with the elements that the rank needs, or a count (R275, R278). -/
def Collective.opening (c : Collective) (r : Nat) : List Packet :=
  let n := c.share
  match c.form with
  | 0 => c.packets 0 0 0 c.own
  | 1 => c.packets 0 0 0 (c.own.filter fun e => e.1 / n == r)
  | 2 => c.packets 0 0 0 (c.own.filter fun e => e.1 / n == c.rank)
  | 3 => c.packets 0 0 0 (if c.rank = 0 then c.own else [])
  | _ => c.packets 1 (c.forRank r).length 0 []

/-- Packets on their way to a rank. -/
def Collective.sendTo (c : Collective) (r : Nat) (l : List Packet) : List Event := l.map fun p => .collectivePacket (c.member r) p

/-- The openings to every member, for each CID one (R277). -/
def Collective.openings (c : Collective) : List Event :=
  c.ranks.flatMap fun r => if c.members.idxOf (c.member r) = r then c.sendTo r (c.opening r) else []

/-- The replies of R278, step 3. -/
def Collective.replies (c : Collective) : List Event :=
  c.ranks.flatMap fun r => c.sendTo r (c.packets 2 (c.rows r).2 (c.rows r).1 [])

/-- The rows sent on a reply: the first elements for the rank, in the rows that it assigned (R278, step 4). -/
def Collective.rowPackets (c : Collective) (p : Packet) : List Event :=
  let es := (c.forRank p.src).take p.count
  if es = [] then []
  else
    let v := fun i => ((c.own.find? (·.1 == i)).map (·.2)).getD 0
    c.sendTo p.src (c.packets 3 0 p.first (es.zipIdx.map fun x => (p.first + x.2, v x.1)))

/-- A packet of a core's collective taken in. -/
def Collective.take (c : Collective) (p : Packet) : Collective := { c with got := c.got ++ [p] }

/-- Early packets that a collective is now ready for, taken in one after another; n at most (R277). -/
def Core.pull (k : Core) (id : Nat) : Nat → Core
  | 0 => k
  | n + 1 =>
    match k.coll id with
    | none => k
    | some c =>
      match k.packets.find? fun p => c.takes p.1 p.2 && c.ready p.2 with
      | none => k
      | some p => ({ k.setColl (c.take p.2) with packets := k.packets.erase p }).pull id n

/-- What follows from what has arrived: early packets, the replies, the end (R277, R278). -/
def State.advanceColl (s : State) (g : CoreId) (id : Nat) : State :=
  let k := (s.core g).pull id ((s.core g).packets.length)
  let s1 := s.setCore g k
  match k.coll id with
  | none => s1
  | some c =>
    let answer := c.form == 4 && !c.replied && c.mismatch.isNone && c.ranks.all c.heard
    let c1 := if answer then { c with replied := true } else c
    let s2 := if answer then (s1.setCore g (k.setColl c1)).posts c1.replies else s1
    if c1.complete && !c1.done then
      (s2.setCore g ((s2.core g).setColl { c1 with done := true })).post (.collectiveMerge g id)
    else s2

/-- The sender's own record of the collective that a packet belongs to. -/
def Core.sending (k : Core) (p : Packet) : Option Collective :=
  k.colls.find? fun c => c.who == p.sender && c.table == p.table && c.seq == p.seq

/-- The sender learns that a member is unreachable, fused off, freed or outside the tenant; a collective that is complete
stays as it is (R275; DEDUCED, log 34). -/
def State.memberGone (s : State) (dst : BitVec 32) (p : Packet) : State :=
  let g := p.sender.core
  match (s.core g).sending p with
  | none => s
  | some c =>
    let r := c.members.idxOf dst
    if c.done then s else (s.setCore g ((s.core g).setColl { c with gone := c.gone ++ [r] })).advanceColl g c.id

/-- A packet reaches a core: accepted, buffered, refused, or its sender learns that there is no such member (R275, R277). -/
def State.arrivePacket (s : State) (dst : BitVec 32) (p : Packet) (again : Event) : Out :=
  let g := cidCore dst
  let k := s.core g
  let src := pkgOf p.sender.core
  if !(s.pkg (pkgOf g)).on then s.again again
  else if !s.mailboxOpen src p.tenant dst || (k.slot (cidSlot dst)).st == .free then .next (s.memberGone dst p)
  else match k.colls.find? (·.takes dst p) with
    | some c =>
      if p.kind = 2 then .next (((s.setCore g (k.setColl (c.take p))).posts (c.rowPackets p)).advanceColl g c.id)
      else if p.kind = 3 || c.ready p then .next ((s.setCore g (k.setColl (c.take p))).advanceColl g c.id)
      else if k.bufferUsed + groupBytes p.elems.length (tyWidth p.t.toNat) ≤ 262144 then
        .next ((s.setCore g { k with packets := k.packets ++ [(dst, p)] }).advanceColl g c.id)
      else s.again (.collectiveRetry dst p)
    | none =>
      if 1 < p.kind then .next s
      else if k.bufferUsed + groupBytes p.elems.length (tyWidth p.t.toNat) ≤ 262144 then
        .next (s.setCore g { k with packets := k.packets ++ [(dst, p)] })
      else s.again (.collectiveRetry dst p)

/-- COLLECTIVE_PACKET (R277, R278). -/
def execCollectivePacket (dst : BitVec 32) (p : Packet) (s : State) : Out := s.arrivePacket dst p (.collectivePacket dst p)

/-- COLLECTIVE_RETRY: a refused packet is sent again (R232, R277; DESIGN CHOICE, log 13). -/
def execCollectiveRetry (dst : BitVec 32) (p : Packet) (s : State) : Out := s.arrivePacket dst p (.collectiveRetry dst p)

/-! ### The merge (R275, R276) -/

/-- The registers with a result merged: the elements, the flags, and for VALL2ALL the mask of what was sent (R274, R278). -/
def Collective.mergeInto (c : Collective) (co : Co) : Co :=
  match c.verdict with
  | some _ => co
  | none =>
    let co1 := co.vput c.dst.toNat c.w c.result
    if c.form = 4 then co1.mput c.mask ((List.range c.len).map fun i => (i, c.sent.contains i)) else co1

/-- The record of a contribution with an uncorrectable error, which has ended a collective with STATUS 3: the collective buffers lie in the
L2 (R275, R327, R366, R368; DEDUCED, log 36). -/
def State.contributionError (s : State) (g : CoreId) (c : Collective) : State :=
  match c.verdict with
  | some (3, r) => s.errorRecord (pkgOf g) c.tenant 2 (Config.bufferErrorAddress g r) (mkCid g c.who.slot) 2
  | _ => s

/-- A finished collective: its register is completed once; the result is merged once the coroutine runs (R276). -/
def State.mergeColl (s : State) (g : CoreId) (id : Nat) : State :=
  match (s.core g).coll id with
  | none => s
  | some c =>
    if !c.done then s
    else
      let s1 := if c.told then s else
        ((s.setCore g ((s.core g).setColl { c with told := true })).contributionError g c).complete c.who c.reg c.word none
      let k := s1.core g
      if k.running = some c.who.slot ∧ (k.slot c.who.slot).gen = c.who.gen then
        let k1 := k.arrive c.mergeInto
        { s1.setCore g { k1 with ext := k1.ext.releaseColl c, colls := k1.colls.filter (·.id != id) } with
          stalled := s1.stalled.filter (· != g) }
      else s1

/-- COLLECTIVE_MERGE (R275, R276). -/
def execCollectiveMerge (g : CoreId) (id : Nat) (s : State) : Out := .next (s.mergeColl g id)

/-- A finished collective of the running coroutine, to be merged before its next instruction (R276). -/
def Core.mergeDue (c : Core) : Option Nat :=
  (c.colls.find? fun x => x.done && c.running == some x.who.slot && (c.slot x.who.slot).gen == x.who.gen).map (·.id)

/-! ### VCOLL (R271, R272) -/

/-- The element groups of v[D] that the result may write (R273, R276). -/
def Collective.pending (c : Collective) : List Pend :=
  let es := match c.form with
    | 1 => c.active.filter fun i => i / c.share == c.rank
    | 4 => List.range c.len
    | _ => c.active
  ((es.map fun i => i * c.w / 2048).eraseDups).map fun k => ⟨c.id, c.dst.toNat, k⟩

/-- What a VCOLL captures at its issue (R272). -/
def State.newColl (s : State) (form : Nat) (o : V32) (g : Grp) (members : List (BitVec 32)) : Collective :=
  let c := s.co
  let w := tyWidth o.t.toNat
  let act := c.active none o
  { id := s.ids, who := s.who, tenant := c.tenant, reg := o.c, form := form, table := g.table, seq := g.seq, rank := g.rank.toNat
    size := g.size.toNat, t := o.t, op := o.y.extractLsb' 0 3, dst := o.d, len := c.vl.toNat, vtype := c.vtype
    active := act, own := act.map fun i => (i, c.elem o.a.toNat w i)
    dests := if form = 4 then act.map fun i => (i, c.elem o.b.toNat w i) else []
    mask := o.mr, members := members, rm := c.rm, seed := c.seed, sbase := c.sbase
    got := [], gone := [], replied := false, done := false, told := false }

/-- The groups and the mask that a collective's result is to write are pending (R276, R278). -/
def Ext.await (e : Ext) (c : Collective) : Ext :=
  { e with
    cpend := e.cpend ++ c.pending
    mpend := if c.form = 4 then e.mpend ||| (1#8 <<< c.mask.toNat) else e.mpend }

/-- The collective outstanding: its openings under way, the packets that came early (R275 to R277). -/
def State.startColl (s : State) (c : Collective) : State :=
  ((s.setCur { s.cur with colls := s.cur.colls ++ [c] }).posts c.openings).advanceColl s.focus c.id

/-- A VCOLL: its checks, what it captures, the end of its chunk (R248, R270 to R272). -/
def State.vcoll (s : State) (i : Instr) (form : Nat) (o : V32) : Out :=
  let srcs := o.a :: if form = 4 then [o.b] else []
  let w := tyWidth o.t.toNat
  if !(o.sameWidth s.co && s.co.regsOk (o.d :: srcs)) then s.illegal i
  else s.issue [] [o.c] fun s =>
    if !s.cur.vq.isEmpty then .next s.stall
    else s.vread srcs o.mask <|
      let n := o.x.toNat
      let g := s.co.g[n]
      let own := if form = 4 then (List.range s.co.vl.toNat).map (groupAt w o.d) else []
      let touch := fun _ => own ++ (s.co.active none o).flatMap fun j => (o.d :: srcs).map fun r => groupAt w r j
      if s.ext.holds touch o.mask then .next s.stall
      else if !g.valid then s.trapHere 11 1
      else s.access (s.readMembers g.table 0 g.size.toNat) fun t ms =>
        if ms.getD g.rank.toNat 0 ≠ s.co.cid then s.trapHere 11 5
        else if 262144 < s.cur.bufferUsed + groupBytes s.co.vl.toNat w then .next s.stall
        else
          let c := s.newColl form o g ms
          let co := t.co.setPend o.c
          let u := { t.setCo { co with vstart := 0, g := co.g.set n { g with seq := g.seq + 1 } } with ids := c.id + 1 }
          s.endsWith (u.setExt (u.ext.await c)) (.collective c) fun u => u.startColl c

/-- VALLRED (R273). -/
def execVallred (o : V32) (s : State) : Out := s.vcoll (.vallred o) 0 o
/-- VREDSCAT (R273). -/
def execVredscat (o : V32) (s : State) : Out := s.vcoll (.vredscat o) 1 o
/-- VALLGATH (R273). -/
def execVallgath (o : V32) (s : State) : Out := s.vcoll (.vallgath o) 2 o
/-- VBCAST (R273). -/
def execVbcast (o : V32) (s : State) : Out := s.vcoll (.vbcast o) 3 o
/-- VALL2ALL (R273, R278). -/
def execVall2all (o : V32) (s : State) : Out := s.vcoll (.vall2all o) 4 o

end Sys2Proof.Machine
end

