-- ==== Sys2Proof/Machine/System.lean ====
section
/-!
DEFINITION. System instructions: NOP, ERET, BRK, SNAP, the control registers, TRAP, the fences and the illegal encodings
(R48, R54, R73 to R76, R83, R107 to R111).
-/

namespace Sys2Proof.Machine

/-- ILLEGAL_INSTRUCTION: cause 1 with the encoding in etval (R18, R83). -/
def execIllegalInstruction (head : BitVec 16) (tail : Word) (s : State) : Out :=
  s.trapHere 1 (encodingVal head tail)

/-- NOP (R111). -/
def execNop (s : State) : Out := s.finish

/-- ERET: the target is checked in the mode that it returns to; then mode, PC and a frozen loop come back (R106, R110, R22). An active loop
stays active with the lstate that it has, since ERET changes no other register (R110). -/
def execEret (s : State) : Out :=
  let c := s.co
  if c.mode = .user then s.trapHere 12 (instrVal .eret)
  else
    let m := if c.estatPm then Mode.kernel else .user
    match s.fate s.focus m c.epc with
    | .misaligned => s.trapHere 3 c.epc
    | _ =>
      s.endsDone (s.setCur { s.cur with
        co := { c with pc := c.epc, mode := m, lfrz := false, lbad := !lstateOk c.lstate }
        chunk := s.cur.chunk.retired })

/-- BRK: cause 13 at its own head (R109). -/
def execBrk (s : State) : Out := s.trapHere 13 0

/-- TRAP: cause 14 at the successor, an active loop advanced (R105, R109). -/
def execTrap (code : BitVec 16) (s : State) : Out :=
  let r := s.retire
  if r.co.lpend then .next (s.loopWait r)
  else if !s.trapReady then .next (s.notYet s)
  else .next (r.takeTrap ⟨14, code.setWidth 64, 0, none⟩ r.co.pc)

/-- SNAP: a trigger at the commit, where it is enabled for the tenant (R111, R373). -/
def execSnap (s : State) : Out :=
  let p := pkgOf s.focus
  if (s.pkg p).snap.tenants.getLsbD s.co.tenant.toNat then s.endsWith s .trigger fun u => u.trigger p 3 else s.ends s

/-! ### Control registers -/

/-- Cores of the cluster that are not fused off (R74, R371). -/
def State.workingCores (s : State) (cl : Nat) : Nat := ((List.range 8).filter fun j => !s.fusedOff (cl * 8 + j)).length

/-- The value of a control register; none for a number that is not implemented (R74, R75). -/
def State.csrRead (s : State) (n : Nat) : Option Word :=
  let c := s.co
  let k := s.cur
  if h : 0x60 ≤ n ∧ n < 0x70 then some (k.pmc[n - 0x60]'(by omega))
  else if h : 0x110 ≤ n ∧ n < 0x120 then some ((k.pmcsel[n - 0x110]'(by omega)).setWidth 64)
  else match n with
    | 0x000 => some (c.vl.setWidth 64)
    | 0x001 => some (c.vtype.setWidth 64)
    | 0x002 => some (c.vstart.setWidth 64)
    | 0x003 => some (c.istate.setWidth 64)
    | 0x008 => some (c.fmode.setWidth 64)
    | 0x009 => some ((c.fmode.extractLsb' 8 5).setWidth 64)
    | 0x010 => some c.seed
    | 0x011 => some c.sbase
    | 0x018 => some 0x0000080801000400
    | 0x019 => some (BitVec.ofNat 64 (s.workingCores (clusterOf s.focus)))
    | 0x020 => some (c.cid.setWidth 64)
    | 0x021 => some (c.stage.setWidth 64)
    | 0x022 => some (BitVec.ofNat 64 (c.ceil.toNat * 16 + c.cls.toNat))
    | 0x023 => some (c.quantum.setWidth 64)
    | 0x030 => some c.lstate
    | 0x040 => some c.tvec
    | 0x041 => some c.epc
    | 0x042 => some (c.ecause.setWidth 64)
    | 0x043 => some c.etval
    | 0x044 => some (BitVec.ofNat 64 (c.estatPm.toNat * 2 ^ 63 + c.info.toNat))
    | 0x050 => some (BitVec.ofNat 64 (s.cycles s.focus))
    | 0x051 => some (BitVec.ofNat 64 (s.gphase (dieOf s.focus)))
    | 0x100 => some (k.wdog.setWidth 64)
    | 0x101 => some (c.asid.setWidth 64)
    | 0x102 => some (c.tenant.setWidth 64)
    | _ => none

/-- Registers that neither mode writes (R74). -/
def csrFixed (n : Nat) : Bool := [0x000, 0x001, 0x018, 0x019, 0x020, 0x021, 0x050, 0x051, 0x101, 0x102].contains n

/-- Registers that user mode reads and kernel mode writes (R74). -/
def csrGuarded (n : Nat) : Bool := [0x023, 0x040, 0x041, 0x042, 0x043, 0x044].contains n

/-- The value keeps the rules of its register's map (R48, R75; check 5 of R73). -/
def Co.csrAccepts (c : Co) (n : Nat) (v : Word) : Bool :=
  if 0x110 ≤ n ∧ n < 0x120 then field v 0 8 < 16
  else match n with
    | 0x003 => field v 0 7 ≤ 64 && field v 8 7 ≤ 64 && (field v 16 1 == 1 || field v 8 7 == 0)
    | 0x008 => 1 ≤ field v 0 3 && field v 0 3 ≤ 5
    | 0x022 => c.mode == .kernel || field v 0 2 ≤ c.ceil.toNat
    | 0x030 => lstateOk v
    | 0x042 => 1 ≤ field v 0 6 && field v 0 6 ≤ 15
    | _ => true

/-- A write of a control register's fields; reserved and read-only bits ignore it (R6, R75). -/
def State.csrWrite (s : State) (n : Nat) (v : Word) : State :=
  let c := s.co
  let k := s.cur
  if h : 0x60 ≤ n ∧ n < 0x70 then s.setCur { k with pmc := k.pmc.set (n - 0x60) v (by omega) }
  else if h : 0x110 ≤ n ∧ n < 0x120 then
    s.setCur { k with pmcsel := k.pmcsel.set (n - 0x110) (v.setWidth 10) (by omega) }
  else match n with
    | 0x002 => s.setCo { c with vstart := v.setWidth 17 }
    | 0x003 => s.setCo { c with istate := v.setWidth 17 &&& 0x17F7F }
    | 0x008 => s.setCo { c with fmode := v.setWidth 13 &&& 0x1F07 }
    | 0x009 => s.setCo { c with fmode := (v.setWidth 5 ++ c.fmode.extractLsb' 0 8 : BitVec 13) }
    | 0x010 => s.setCo { c with seed := v }
    | 0x011 => s.setCo { c with sbase := v }
    | 0x022 => s.setCo { c with cls := v.setWidth 2 }
    | 0x023 => s.setCo { c with quantum := v.setWidth 32 }
    | 0x030 => s.setCo { c with lstate := v &&& 0xFFFFFFFF1FFFFFFF, lfrz := c.lfrz && lDepth v != 0 }
    | 0x040 => s.setCo { c with tvec := v }
    | 0x041 => s.setCo { c with epc := v }
    | 0x042 => s.setCo { c with ecause := v.setWidth 6 }
    | 0x043 => s.setCo { c with etval := v }
    | 0x044 => s.setCo { c with estatPm := v.getLsbD 63, info := v.setWidth 58 }
    | 0x100 => s.setCur { k with wdog := v.setWidth 48 }
    | _ => s

/-- A write of lstate where no loop is frozen: the PC is the successor, and the state written is taken relative to it (R106). -/
def State.retireLoopless (s : State) (succ : Word) : State :=
  s.setCur { s.cur with co := { s.co with pc := succ }, chunk := s.cur.chunk.retired }

/-- An access to fmode or fflags waits until the vector queue is empty (R118). -/
def State.flagsWait (s : State) (n : Nat) : Bool := (n == 0x008 || n == 0x009) && !s.cur.vq.isEmpty

/-- CSRR, CSRW, CSRS and CSRC: R73's checks in their order, before any register is read, but for the check of the value (R83, R108). -/
def State.csrOp (s : State) (d : Reg) (a : Option Reg) (csr : BitVec 11) (f : Word → Word → Word) : Out :=
  let n := csr.toNat
  let val := csr.setWidth 64
  if (0x400 ≤ n ∧ n < 0x500) ∨ (0x100 ≤ n ∧ n < 0x200 ∧ s.co.mode = .user) then s.trapHere 12 val
  else match s.csrRead n, a with
    | none, _ => s.trapHere 1 val
    | some old, none => s.issue [] [d] fun s => if s.flagsWait n then .next s.stall else (s.wr d old).finish
    | some old, some r =>
      if csrFixed n then s.trapHere 1 val
      else if csrGuarded n && s.co.mode == .user then s.trapHere 12 val
      else s.issue [r] [d] fun s =>
        if s.flagsWait n then .next s.stall
        else if !s.co.csrAccepts n (f old (s.rd r)) then s.trapHere 1 val
        else
          let t := (s.csrWrite n (f old (s.rd r))).wr d old
          s.endsDone (if n = 0x030 then t.retireLoopless s.succ else t.retire)

/-- CSRR (R108). -/
def execCsrr (d : Reg) (csr : BitVec 11) (s : State) : Out := s.csrOp d none csr fun x _ => x

/-- CSRW (R108). -/
def execCsrw (d a : Reg) (csr : BitVec 11) (s : State) : Out := s.csrOp d (some a) csr fun _ y => y

/-- CSRS (R108). -/
def execCsrs (d a : Reg) (csr : BitVec 11) (s : State) : Out := s.csrOp d (some a) csr fun x y => x ||| y

/-- CSRC (R108). -/
def execCsrc (d a : Reg) (csr : BitVec 11) (s : State) : Out := s.csrOp d (some a) csr fun x y => x &&& ~~~y

/-! ### Fences -/

/-- The core's fetched lines discarded (R24). -/
def State.dropLines (s : State) : State := s.setCur { s.cur with line := none, ahead := [] }

/-- FENCE.cluster: the chunk ends and the core fetches committed lines afterwards (R24, R107). -/
def execFenceCluster (s : State) : Out := s.endsThen s State.dropLines

/-- FENCE.package: as FENCE.cluster (R107). -/
def execFencePackage (s : State) : Out := s.endsThen s State.dropLines

/-- The one bits of a slice mask. -/
def maskBits (m : BitVec 64) : List Nat := (List.range 64).filter fun i => m.getLsbD i

/-- The banks that a fence probes: the touched set's, or every bank of the tenant's partition (R107, R263). -/
def State.probes (s : State) : List (Nat × Nat) :=
  let e := s.ext
  if e.wide then
    let c := (s.tenant (pkgOf s.focus) s.co.tenant.toNat).cfg
    (List.range c.pcount.toNat).flatMap fun i => (List.range 64).map fun b => (c.pbase.toNat + i, b)
  else e.touched.flatMap fun x => (maskBits x.2).map fun b => (x.1, b)

/-- A probed package that has lost a posted store (R107). -/
def Ext.lostOf (e : Ext) (probed : List Nat) : Option Nat := e.lost.find? fun p => e.wide || probed.contains p

/-- The touched set and the wide flag cleared (R107, R263). -/
def Ext.cleared (e : Ext) : Ext := { e with touched := [], wide := false }

/-- FENCE.pod: its chunk commits, it sends its probes and issues nothing until all have echoed; then it clears the set, or
raises cause 15 with the package that failed (R107). -/
def execFencePod (s : State) : Out :=
  match s.ext.fence with
  | none =>
    match s.commit s.focus with
    | none => .next (s.notYet s)
    | some t =>
      let ps := t.probes
      if ps = [] then .next ((t.setExt t.ext.cleared).settle.dropLines)
      else .next ((t.setExt { t.ext with fence := some ps }).posts (ps.map fun p => .fenceProbeEcho t.who 0 p.1 p.2))
  | some [] =>
    let e := s.ext
    match e.lostOf (e.touched.map (·.1)) with
    | some p =>
      if !s.trapReady then .next (s.notYet s)
      else
      let t := s.setExt { e with fence := none, lost := e.lost.filter (· != p) }
      .next (t.takeTrap ⟨15, BitVec.ofNat 64 p, 0, none⟩ s.co.pc)
    | none => .next ((s.setExt { s.ext.cleared with fence := none }).settle.dropLines)
  | some _ => .next s.stall

/-- The completion of a FENCET: status 0, or 2 with the package that failed; the set is cleared (R107). -/
def State.fencetDone (s : State) (who : Who) (r : Reg) (probed : List Nat) (bad : Option Nat) : State :=
  let lost := (s.extOf who).bind fun e => e.lostOf probed
  let word := match bad.orElse fun _ => lost with
    | some p => completionWord 2 p
    | none => completionWord 0 0
  (s.mapExt who fun e => { e.cleared with lost := e.lost.filter fun p => some p != lost }).complete who r word none

/-- FENCET: the probes are sent and s[d] is pending until they have echoed (R107). -/
def execFencet (d : Reg) (s : State) : Out :=
  s.issue [] [d] fun s =>
    s.endsThen (s.setCo (s.co.setPend d)) fun u =>
      let ps := u.probes
      let u := u.dropLines
      if ps = [] then u.fencetDone s.who d [] none
      else (u.setExt { u.ext with fencets := u.ext.fencets ++ [(d, ps, none)] }).posts
        (ps.map fun p => .fenceProbeEcho s.who d p.1 p.2)

/-- The number of the posted write to a bank that an event is, or of an acknowledgement from its package. -/
def State.bankWrite (s : State) (pkg bit : Nat) (e : Event) : Option Nat :=
  let there := fun (pa : Pa) => paPkg pa == pkg && homeBit (s.homeOf pa) == bit
  match e with
  | .remoteWriteAtHome _ pa _ _ q => if there pa then some q.seq else none
  | .amoAtHome _ _ pa _ _ _ _ _ q => if there pa then some q.seq else none
  | .vamoUpdateAtHome _ _ pa _ _ _ _ _ _ _ q => if there pa then some q.seq else none
  | .postedWriteAcknowledged _ p a => if p = pkg then some a.seq else none
  | _ => none

/-- A remote write, AMO or update of a coroutine to a bank, or its acknowledgement, is still under way (R107). -/
def State.bankBusy (s : State) (who : Who) (pkg bit : Nat) : Bool :=
  match s.extOf who with
  | none => false
  | some x => s.flight.any fun e => (s.bankWrite pkg bit e).any x.unacked.contains

/-- A probe's answer, with the package where it failed: taken by the first fence that waits for it (R107). -/
def State.echoed (s : State) (who : Who) (r : Reg) (pkg bit : Nat) (failed : Bool) : State :=
  match s.extOf who with
  | none => s
  | some e =>
    match e.fencets.findIdx? fun f => f.1 == r && f.2.1.contains (pkg, bit) with
    | some i =>
      let f := e.fencets.getD i (0, [], none)
      let left := f.2.1.erase (pkg, bit)
      let bad := if failed then f.2.2.orElse fun _ => some pkg else f.2.2
      if left = [] then
        (s.mapExt who fun e => { e with fencets := e.fencets.eraseIdx i }).fencetDone who r (e.touched.map (·.1)) bad
      else s.mapExt who fun e => { e with fencets := e.fencets.set i (r, left, bad) }
    | none =>
      s.mapExt who fun e => { e with
        fence := e.fence.map (·.erase (pkg, bit))
        lost := if failed && !e.lost.contains pkg then e.lost ++ [pkg] else e.lost }

/-- FENCE_PROBE_ECHO: the bank answers after every remote write that the coroutine sent to it before (R107). -/
def execFenceProbeEcho (who : Who) (r : Reg) (pkg : Nat) (bit : Nat) (s : State) : Out :=
  if !(s.pkg pkg).on || s.bankBusy who pkg bit then .next (s.post (.fenceProbeEcho who r pkg bit))
  else .next (s.echoed who r pkg bit false)

end Sys2Proof.Machine
end

