-- ==== Sys2Proof/Machine/Launch.lean ====
section
/-!
DEFINITION. Creating coroutines: SPAWN and its placement (R212 to R214), the task distributor (R314 to R325), and the
commands on slots (R203, R326).
-/

namespace Sys2Proof.Machine

/-! ### Creation (R194, R214) -/

/-- The lowest free slot of a core. -/
def Core.freeSlot (c : Core) : Option Nat := (List.range 256).find? fun k => (c.slot k).st == .free

/-- A core that can hold coroutines: not fused off, with valid save areas (R371, R381). -/
def State.usable (s : State) (g : CoreId) : Bool := !s.fusedOff g && s.savesValid g

/-- A usable core with a free slot. -/
def State.hasRoom (s : State) (g : CoreId) : Bool := s.usable g && (s.core g).freeSlot.isSome

/-- A coroutine created in a free slot: signalled, at the back of its class, its context resident with the registers of a
live mask (R194, R206, R214, R351). -/
def State.create (s : State) (g : CoreId) (k : Nat) (co : Co) (live : Word) : State :=
  let co := { co with cid := mkCid g k }
  let size := co.explicitSize live
  let s1 := s.makeRoom g (ceilDiv size 64 * 64) true 256
  let c := s1.core g
  let x : Slot := { Slot.reset with
    st := .signalled, gen := (c.slot k).gen, co := co, live := live, size := size, stamp := s1.elapsed }
  ((s1.setCore g (c.setSlot k x)).joinOrder g k).post (.coreResume g)

/-- The registers of a new coroutine with its first three arguments (R214). -/
def newCo (pc s1 s2 s3 : Word) (vtype : BitVec 6) (cls ceil : BitVec 2) (stage : BitVec 4) (asid : BitVec 14)
    (tenant : BitVec 6) (grant : Bool) (done : Word) : Co :=
  { Co.reset with
    s := Vector.ofFn fun i => if i.val = 1 then s1 else if i.val = 2 then s2 else if i.val = 3 then s3 else 0
    pc := pc, vtype := vtype, cls := cls, ceil := ceil, stage := stage, asid := asid, tenant := tenant
    grant := grant, done := done }

/-! ### SPAWN (R212, R213) -/

/-- n indices from base on, starting at a place and wrapping. -/
def scan (base n start : Nat) : List Nat := (List.range n).map fun i => base + (start + i) % n

/-- The first core that has room. -/
def State.firstRoom (s : State) (l : List CoreId) : Option (CoreId × Nat) :=
  (l.find? s.hasRoom).bind fun g => ((s.core g).freeSlot).map fun k => (g, k)

/-- The clusters of a tenant's placement by stage: the map's entry where it is in use, else the whole set; none where the
entry leaves the set (R312, R318, R325). An entry in use with COUNT 0, which R312 does not allow, gives an empty placement, which is accepted
and binds nobody (DESIGN CHOICE, log 68). -/
def State.stageClusters (s : State) (p t : Nat) (stage : Nat) : Option (List Nat) :=
  let e := ((s.tenant p t).stages.toList).getD stage 0
  let l := (List.range (field e 0 8)).map (field e 16 7 + ·)
  if field e 63 1 = 0 then some ((List.range 128).filter fun k => s.inSet p t k)
  else if l.all fun k => k < 128 && s.inSet p t k then some l else none

/-- The cores of clusters of a tenant's set in the distributor's order: after the tenant's previous placement (R323). -/
def State.distributorScan (s : State) (p t : Nat) (clusters : List Nat) : List CoreId :=
  (scan 0 1024 (s.tenant p t).place).filterMap fun i =>
    if clusters.contains (i / 8) && s.inSet p t (i / 8) then some (p * 1024 + i) else none

/-- The distributor's position after a placement. -/
def State.placed (s : State) (p t : Nat) (g : CoreId) : State :=
  s.setTenant p t { s.tenant p t with place := (g % 1024 + 1) % 1024 }

/-- A named slot that the tenant may fill (R213). -/
def State.namedRoom (s : State) (src : Nat) (t : BitVec 6) (cid : BitVec 32) : Option (CoreId × Nat) :=
  let g := cidCore cid
  let ok := match s.localTenant (pkgOf g) src t with
    | some lt => s.inSet (pkgOf g) lt.toNat (clusterOf g % 128)
    | none => false
  if cid.toNat % 4 = 0 && s.inPartition src t.toNat (pkgOf g) && ok && s.usable g && ((s.core g).slot (cidSlot cid)).st == .free
  then some (g, cidSlot cid) else none

/-- Where a SPAWN of a kind places its child (R212, R213, R325). -/
def State.spawnPlace (s : State) (q : SpawnReq) : Option (CoreId × Nat) :=
  let g := q.parent.core
  let p := pkgOf g
  match q.kind with
  | 0 => s.firstRoom ([g].filter fun h => s.inSet p q.tenant.toNat (clusterOf h % 128))
  | 1 => s.namedRoom p q.tenant q.cid
  | 2 => s.firstRoom ((scan (clusterOf g * 8) 8 (g % 8 + 1)).filter fun h => s.inSet p q.tenant.toNat (clusterOf h % 128))
  | 3 => s.firstRoom ((scan (dieOf g * 256) 256 (g % 256 + 1)).filter fun h => s.inSet p q.tenant.toNat (clusterOf h % 128))
  | _ => (s.stageClusters p q.tenant.toNat q.stage.toNat).bind fun l => s.firstRoom (s.distributorScan p q.tenant.toNat l)

/-- SPAWN_REQUEST: once the parent's earlier writes are acknowledged and the banks that it probes echo, the child is created, or s[d] gets
-1; a lost write of a probed package gives -1 (R213, R264, R266). -/
def execSpawnRequest (q : SpawnReq) (s : State) : Out :=
  let off := fun (p : Nat) => !(s.pkg p).on
  if !s.released q.after || (q.kind == 1 && off (pkgOf (cidCore q.cid))) || q.probes.any fun x => off x.1 then s.again (.spawnRequest q)
  else match if q.failed then none else s.spawnPlace q with
    | none => .next (s.complete q.parent q.reg (-1) none)
    | some (g, k) =>
      let p := pkgOf q.parent.core
      let t := (s.localTenant (pkgOf g) p q.tenant).getD q.tenant
      let co := newCo q.pc q.s1 q.s2 ((mkCid q.parent.core q.parent.slot).setWidth 64) q.vtype q.cls q.ceil q.stage q.asid t
        q.grant 0
      let s1 := s.create g k co 0xE
      let s2 := if q.kind = 4 then s1.placed p q.tenant.toNat g else s1
      .next (s2.complete q.parent q.reg ((mkCid g k).setWidth 64) none)

/-- The request of a SPAWN sent. One that names a slot of another package also fences: it probes the touched set, which is cleared, and a
lost write of a probed package fails it (R107, R264, R266). -/
def State.sendSpawn (s : State) (q : SpawnReq) : State :=
  let e := s.ext
  if q.kind = 1 ∧ pkgOf (cidCore q.cid) ≠ pkgOf s.focus then
    let ps := s.probes
    let lost := e.lost.filter fun p => e.wide || ps.any (·.1 == p)
    (s.setExt { e.cleared with lost := e.lost.filter (!lost.contains ·) }).post
      (.spawnRequest { q with after := e.unacked, probes := ps, failed := !lost.isEmpty })
  else s.post (.spawnRequest { q with after := e.unacked })

/-- SPAWN: the chunk ends, s[d] is pending, the request is sent (R212, R213). -/
def execSpawn (d a b c e : Reg) (y : BitVec 7) (s : State) : Out :=
  s.issue [a, b, c, e] [d] fun s =>
    let q : SpawnReq := {
      parent := s.who, reg := d, kind := (y.extractLsb' 0 3).toNat, cid := (s.rd e).setWidth 32, target := s.rd e,
      pc := s.rd a, s1 := s.rd b, s2 := s.rd c, stage := y.extractLsb' 3 4, vtype := s.co.vtype, cls := s.co.cls,
      ceil := s.co.ceil, asid := s.co.asid, tenant := s.co.tenant, grant := s.co.grant, after := [], probes := [], failed := false }
    s.endsWith (s.setCo (s.co.setPend d)) (.spawn q) fun u => u.sendSpawn q

/-! ### The distributor (R314 to R324) -/

/-- A launch queue of a tenant. -/
def State.queue (s : State) (p : Nat) (t : BitVec 6) (q : BitVec 4) : Queue :=
  (s.tenant p t.toNat).queues[q.toNat]

/-- A launch queue replaced. -/
def State.setQueue (s : State) (p : Nat) (t : BitVec 6) (q : BitVec 4) (x : Queue) : State :=
  s.setTenant p t.toNat { s.tenant p t.toNat with queues := (s.tenant p t.toNat).queues.set q.toNat x }

/-- LAUNCH_QUEUE_CONFIG_WRITE (R314). -/
def execLaunchQueueConfigWrite (pkg : Nat) (t : BitVec 6) (q : BitVec 4) (off : BitVec 6) (val : Word) (s : State) : Out :=
  .next (s.queueWrite pkg t q.toNat off.toNat val)

/-- FAULT_QUEUE_CONFIG_WRITE (R313). -/
def execFaultQueueConfigWrite (pkg : Nat) (t : BitVec 6) (val : Word) (s : State) : Out :=
  .next (s.setTenant pkg t.toNat ((s.tenant pkg t.toNat).faultQueueWrite val))

/-- A host's write of a register that makes a token operation on the word that the register names: only in the tenant's windows, and where the
word's package admits it; its request is under way where the word's package does not answer (R311, R333, R335, R340, R380). -/
def State.tenantSignal (s : State) (p : Nat) (t : BitVec 6) (pa : Pa) (e : Event) (f : Word → Word × Bool) : Out :=
  if !s.inWindow p t.toNat pa 8 || !s.admits p t pa 8 then .next s
  else if s.homeBusy pa then .next (s.post e)
  else .next (s.tokenOp (.host p t) pa f)

/-- QDOOR: raise(QTOK, value); a word outside the tenant's windows is left alone (R315, R311, R380; DEDUCED, log 25). -/
def execQdoor (pkg : Nat) (t : BitVec 6) (q : BitVec 4) (val : BitVec 32) (s : State) : Out :=
  let pa := (s.queue pkg t q).qtok.toNat
  let n := signed 32 val.toNat
  s.tenantSignal pkg t pa (.tokenRaiseAtHome (.host pkg t) pa n) fun w => tokRaise w n

/-- Entries published and not consumed (R316). -/
def State.avail (s : State) (x : Queue) : Int := tokCnt (memWord s.mem x.qtok.toNat) - (x.qhead.toNat : Int)

/-- The address of the entry at a queue's head (R315). -/
def Queue.entryPa (x : Queue) : Pa := x.qbase.toNat + 64 * (x.qhead.toNat % 2 ^ field x.ctl 0 5)

/-- The distributor may look at n bytes of a queue: they lie in a window of the tenant, and their package admits it (R311, R340; DEDUCED, log
38). -/
def State.queueReach (s : State) (p : Nat) (t : BitVec 6) (pa n : Nat) : Bool := s.inWindow p t.toNat pa n && s.admits p t pa n

/-- LAUNCH_TOKEN_FIRING: an overflow disables the queue; a published entry is read where no head is (R311, R316, R320, R380). -/
def execLaunchTokenFiring (pkg : Nat) (t : BitVec 6) (q : BitVec 4) (s : State) : Out :=
  let x := s.queue pkg t q
  let pa := x.qtok.toNat
  if field x.ctl 63 1 = 0 ∨ !s.queueReach pkg t pa 8 then .next s
  else if s.homeBusy pa then s.again (.launchTokenFiring pkg t q)
  else if s.failing pa then .next ((s.memoryError pkg t 2 pa 0).post (.distributorRegistrationRetry pkg t q))
  else if (2 ^ field x.ctl 0 5 : Nat) < s.avail x then
    let s1 := s.setQueue pkg t q { x with ctl := x.ctl &&& 0x7FFFFFFFFFFFFFFF, ovf := true }
    .next (s1.record pkg t [3, q.setWidth 64, BitVec.ofNat 64 (field (memWord s.mem pa) 0 32), 8])
  else if 0 < s.avail x ∧ x.head.isNone then .next (s.post (.launchEntryRead pkg t q))
  else .next s

/-- The first byte of the entry at a queue's head that meets an uncorrectable error. -/
def State.entryFails (s : State) (x : Queue) : Option Pa := ((List.range 64).map (x.entryPa + ·)).find? s.failing

/-- DISTRIBUTOR_REGISTRATION_RETRY: the registration on the launch token or the after-tokens is tried again, until the
words are rewritten (R380; DESIGN CHOICE, log 13), and so is the read of an entry that failed (DESIGN CHOICE, log 59). -/
def execDistributorRegistrationRetry (pkg : Nat) (t : BitVec 6) (q : BitVec 4) (s : State) : Out :=
  let x := s.queue pkg t q
  if s.failing x.qtok.toNat || x.after.any s.failing || (x.head.isNone && (s.entryFails x).isSome) then
    s.again (.distributorRegistrationRetry pkg t q)
  else .next (s.posts [.launchTokenFiring pkg t q, .afterTokenEligible pkg t q])

/-- A field of a launch entry (R317). -/
def entryField (e : List Byte) (off n : Nat) : Nat := leNat ((e.drop off).take n)

/-- The clusters that an entry's placement names, of which those in the set are used, every one for scope 1; none where R318 does not accept
it. -/
def State.entryClusters (s : State) (p : Nat) (t : BitVec 6) (e : List Byte) : Option (List Nat) :=
  let pl := entryField e 0x14 4
  let base := bits pl 16 12
  let n := bits pl 0 16
  let l := (List.range n).map (base + ·)
  match bits pl 28 4 with
  | 0 => if 1 ≤ n ∧ base + n ≤ 128 ∧ l.all (fun k => s.inSet p t.toNat k) then some l else none
  | 1 => if (List.range 128).any fun k => s.inSet p t.toNat k then some (List.range 128) else none
  | 2 =>
    let st := ((s.tenant p t.toNat).stages.toList).getD (bits (entryField e 0x19 1) 0 4) 0
    if field st 63 1 = 1 then s.stageClusters p t.toNat (bits (entryField e 0x19 1) 0 4) else none
  | _ => none

/-- The space in which the distributor translates for a queue: it reads the tables and uses no TLB (R319; DEDUCED, log 8). -/
def Queue.space (x : Queue) (p : Nat) (t : BitVec 6) : Space :=
  { core := none, cl := p * 128, asid := BitVec.ofNat 14 (field x.ctl 32 14), tenant := t, mode := .kernel, fresh := true }

/-- The translation of a token word that an entry names, under the queue's ASID in kernel mode (R319). -/
def State.entryToken (s : State) (p : Nat) (t : BitVec 6) (x : Queue) (k : Kind) (va : Nat) : Option Pa :=
  let sp := x.space p t
  if va % 8 ≠ 0 then none
  else match s.translate sp k (BitVec.ofNat 64 va) 8 with
    | .ok segs => (segs.head?).map (·.pa)
    | .error _ => none

/-- The first check of R319 that an entry fails. -/
def State.entryReason (s : State) (p : Nat) (t : BitVec 6) (x : Queue) (e : List Byte) : Option Nat :=
  let c := (s.tenant p t.toNat).cfg
  let cls := entryField e 0x18 1
  let vt := entryField e 0x1A 1
  let bad := fun (k : Kind) (off : Nat) => entryField e off 8 != 0 && (s.entryToken p t x k (entryField e off 8)).isNone
  if cls / 4 ≠ 0 ∨ c.classmax.toNat < cls % 4 then some 1
  else if entryField e 0x19 1 / 16 ≠ 0 then some 2
  else if vt / 64 ≠ 0 ∨ bits vt 4 2 = 3 ∨ bits vt 0 4 = 15 then some 3
  else if (s.entryClusters p t e).isNone then some 4
  else if entryField e 0x10 4 = 0 then some 5
  else if bits (entryField e 0x1B 1) 0 1 = 1 ∧ !c.granw then some 6
  else if bad .load 0x20 || bad .load 0x28 || bad .store 0x30 then some 7
  else none

/-- The token words that an entry names, with their kinds of access (R317, R319). -/
def entryTokens (e : List Byte) : List (Kind × Nat) :=
  [(Kind.load, entryField e 0x20 8), (.load, entryField e 0x28 8), (.store, entryField e 0x30 8)].filter (·.2 != 0)

/-- The walks of an entry's check: the errors that they correct are counted, and one that they cannot correct is recorded (R365, R366). -/
def State.entryWalks (s : State) (p : Nat) (t : BitVec 6) (x : Queue) (e : List Byte) : State :=
  let sp := x.space p t
  (entryTokens e).foldl (fun s y =>
    let va := BitVec.ofNat 64 y.2
    let s1 := s.noteRuns (s.walkReads sp va)
    match s.translate sp y.1 va 8 with
    | .error (m, _) => match m.bad with
      | some pa => s1.memoryError p t 2 pa 0
      | none => s1
    | .ok _ => s1) s

/-- The words of a launch entry. -/
def entryWords (e : List Byte) : List Word := (List.range 8).map fun i => BitVec.ofNat 64 (entryField e (8 * i) 8)

/-- LAUNCH_ENTRY_READ: the head is read and checked; a rejected one is consumed with its record (R311, R316 to R320). One that meets an
uncorrectable error is reported and read again later (DESIGN CHOICE, log 59). -/
def execLaunchEntryRead (pkg : Nat) (t : BitVec 6) (q : BitVec 4) (s : State) : Out :=
  let x := s.queue pkg t q
  let pa := x.entryPa
  if field x.ctl 63 1 = 0 ∨ x.head.isSome ∨ s.avail x ≤ 0 ∨ !s.queueReach pkg t pa 64 then .next s
  else if s.homeBusy pa || s.readBusy pa 64 then s.again (.launchEntryRead pkg t q)
  else match s.entryFails x with
  | some bad => .next ((s.memoryError pkg t 2 bad 0).post (.distributorRegistrationRetry pkg t q))
  | none =>
    let e := memBytes s.mem pa 64
    let s := (s.noteRuns [(pa, 64)]).entryWalks pkg t x e
    match s.entryReason pkg t x e with
    | some r =>
      let s1 := s.setQueue pkg t q { x with qhead := x.qhead + 1 }
      .next ((s1.record pkg t ([3, q.setWidth 64, x.qhead.setWidth 64, BitVec.ofNat 64 r] ++ entryWords e)).post
        (.launchTokenFiring pkg t q))
    | none =>
      let after := [0x20, 0x28].filterMap fun o =>
        if entryField e o 8 = 0 then none else s.entryToken pkg t x .load (entryField e o 8)
      let clusters := (s.entryClusters pkg t e).getD []
      .next ((s.setQueue pkg t q { x with head := some e, eligible := none, after := after, clusters := clusters }).post
        (.afterTokenEligible pkg t q))

/-- AFTER_TOKEN_ELIGIBLE: an after-token whose CNT is 0 or below is awaited no more, and a firing since its registration has done the same;
with none left the entry is eligible from then on. A word that its package does not admit, or that is off, stays awaited (R321, R340,
R380). -/
def execAfterTokenEligible (pkg : Nat) (t : BitVec 6) (q : BitVec 4) (s : State) : Out :=
  let x := s.queue pkg t q
  if x.head.isNone || x.eligible.isSome then .next s
  else
    let left := x.after.filter fun pa =>
      s.failing pa || s.homeBusy pa || !s.admits pkg t pa 8 || 0 < tokCnt (memWord s.mem pa)
    let s1 := s.setQueue pkg t q { x with after := left, eligible := if left = [] then some s.elapsed else none }
    if left = [] then .next (s1.post (.instanceBind pkg t))
    else match left.find? s.failing with
      | some pa => .next ((s1.memoryError pkg t 2 pa 0).post (.distributorRegistrationRetry pkg t q))
      | none => .next s1

/-- The head that is selected next: the highest PRI, then the earliest eligible, then the lowest number (R322). -/
def Tenant.select (x : Tenant) : Option Nat :=
  let l := (x.queues.toList.zipIdx).filter fun y => field y.1.ctl 63 1 == 1 && y.1.head.isSome && y.1.eligible.isSome
  match l with
  | [] => none
  | y :: r =>
    some (r.foldl (fun b z =>
      let better := field b.1.ctl 16 2 < field z.1.ctl 16 2 ||
        (field b.1.ctl 16 2 == field z.1.ctl 16 2 && z.1.eligible.getD 0 < b.1.eligible.getD 0)
      if better then z else b) y).2

/-- The registers that an instance starts with (R324). -/
def instanceCo (t : BitVec 6) (x : Queue) (e : List Byte) (i : Nat) : Co :=
  let cls := BitVec.ofNat 2 (entryField e 0x18 1)
  newCo (BitVec.ofNat 64 (entryField e 0 8)) (BitVec.ofNat 64 i) (BitVec.ofNat 64 (entryField e 8 8))
    (BitVec.ofNat 64 (entryField e 0x10 4)) (BitVec.ofNat 6 (entryField e 0x1A 1)) cls cls
    (BitVec.ofNat 4 (entryField e 0x19 1)) (BitVec.ofNat 14 (field x.ctl 32 14)) t
    (bits (entryField e 0x1B 1) 0 1 == 1) (BitVec.ofNat 64 (entryField e 0x30 8))

/-- INSTANCE_BIND: the tenant's selected entry binds its next instance; without one an entry is selected; binding pauses
while no core of the placement has a free slot (R322, R323). -/
def execInstanceBind (pkg : Nat) (t : BitVec 6) (s : State) : Out :=
  let y := s.tenant pkg t.toNat
  match y.bind with
  | none =>
    match y.select with
    | none => .next s
    | some n =>
      let q := BitVec.ofNat 4 n
      let x := s.queue pkg t q
      let s1 := s.setQueue pkg t q { x with sel := 1 }
      .next ((s1.setTenant pkg t.toNat { s1.tenant pkg t.toNat with bind := some ⟨n, x.head.getD [], 0, x.clusters⟩ }).post
        (.instanceBind pkg t))
  | some b =>
    let q := BitVec.ofNat 4 b.queue
    let x := s.queue pkg t q
    match s.firstRoom (s.distributorScan pkg t.toNat b.clusters) with
    | none => .next s
    | some (g, k) =>
      let s1 := (s.create g k (instanceCo t x b.entry b.next) 0xE).placed pkg t.toNat g
      let z := s1.tenant pkg t.toNat
      if b.next + 1 < entryField b.entry 0x10 4 then
        .next ((s1.setTenant pkg t.toNat { z with bind := some { b with next := b.next + 1 } }).post (.instanceBind pkg t))
      else
        let s2 := s1.setTenant pkg t.toNat { z with bind := none }
        let x2 := s2.queue pkg t q
        .next ((s2.setQueue pkg t q { x2 with qhead := x2.qhead + 1, sel := 0, head := none, eligible := none, after := [] }).posts
          [.launchTokenFiring pkg t q, .instanceBind pkg t])

/-! ### Commands on slots (R203, R326) -/

/-- A command on a slot is over. -/
def State.commandDone (s : State) (g : CoreId) : State := s.setCore g { s.core g with busy := false }

/-- A stopped slot evicted: its context and record in the save area (R202, R203). -/
def State.evictSlot (s : State) (g : CoreId) (k : Nat) (runnable : Bool) : State :=
  let c := s.core g
  let x := c.slot k
  let a := c.saveArea k
  let e := x.ext.saved
  let m := if x.inMem then s.mem else writeContext s.mem a x.co x.full x.live
  let m := memPutWords m (a + 0x140) (x.co.record e false true runnable)
  let runs := (a + 0x140, 0xD0) :: if x.inMem then [] else x.co.contextRuns a x.full x.live
  let x' := { x with st := .evicted, inMem := true, signalled := runnable, ext := e }
  ((s.setCore g { c.setSlot k x' with refills := c.refills.filter (· != k) }).saveMem g m runs).kickRefill g

/-- A core's running coroutine stands at an instruction boundary, or between two groups of a VISSUE, with nothing outstanding that
its full context would wait for (R118, R165, R199, R203). -/
def Core.atBoundary (c : Core) : Bool :=
  c.settled && !c.co.lpend && !c.ext.ended && c.co.cont == 0 && (c.slot (c.running.getD 0)).wait == .nothing

/-- SLOT_EVICT: the running coroutine issues nothing beyond its next instruction boundary and is evicted there, any other where it
stands (R165, R203). -/
def execSlotEvict (g : CoreId) (slot : BitVec 8) (s : State) : Out :=
  let c := s.core g
  let k := slot.toNat
  let x := c.slot k
  let s1 := s.setCore g { c with evicting := false }
  if c.running = some k then
    let wait := (s.setCore g { c with evicting := true }).again (.slotEvict g slot)
    if !c.atBoundary then wait
    else match s1.commit g with
      | none => if s1.commitHeld g then wait else (s1.redo g).again (.slotEvict g slot)
      | some t => .next (((t.stop g true 0 .suspended .nothing c.co.pc).evictSlot g k true).commandDone g)
  else match x.st with
    | .free | .evicted | .halted => .next (s1.commandDone g)
    | .signalled | .refilling => .next ((s1.evictSlot g k true).commandDone g)
    | _ => .next ((s1.evictSlot g k false).commandDone g)

/-- The condition of a restored coroutine registered again (R230, R326). -/
def State.awaitAgain (s : State) (g : CoreId) (k : Nat) : State :=
  let x := (s.core g).slot k
  let holds := match x.wait with
    | .nothing => true
    | .register r => !x.co.isPend r
    | .batches n => x.ext.sealedB.length ≤ n
    | .cell n => tokCnt (memWord s.mem (cellPa g n)) ≤ 0
    | .failed _ => true
    | _ => false
  if holds then s.signalSlot g k
  else match x.wait.token with
    | some _ => s.post (.tokenRegistration ⟨g, k, x.gen⟩)
    | none => s

/-- An evicted or halted slot restored: header and record as they stand in the save area; the context comes back through
the spillway (R326). -/
def State.restoreSlot (s : State) (g : CoreId) (k : Nat) : State :=
  let c := s.core g
  let x := c.slot k
  let a := c.saveArea k
  let w := wordsAt s.mem (a + 0x140)
  let co := (x.co.ofRecord w).ofHeader (wordsAt s.mem a)
  let full := field (wordsAt s.mem a 3) 18 1 == 1
  let live := wordsAt s.mem a 4
  let x1 := { x with
    co := co, full := full, live := live, size := if full then fullSize else co.explicitSize live, inMem := true
    ext := { x.ext with wide := field (w 7) 60 1 == 1 }, signalled := false, st := SlotState.spilled }
  let y := s.pkg (pkgOf g)
  let mine := fun (v : Waiter) => v.who.core == g && v.who.slot == k
  let s1 := s.setPkg (pkgOf g) { y with waiters := y.waiters.filter fun v => !mine v }
  let s2 := s1.setCore g (c.setSlot k x1)
  if field (w 7) 61 1 = 1 ∨ x.st = .halted then s2.signalSlot g k else s2.awaitAgain g k

/-- SLOT_RESTORE; a header or slot record that fails leaves the slot halted (R326, R366). -/
def execSlotRestore (g : CoreId) (slot : BitVec 8) (s : State) : Out :=
  let k := slot.toNat
  let st := ((s.core g).slot k).st
  let a := (s.core g).saveArea k
  let s1 :=
    if st == .evicted || st == .halted then
      match s.failingIn (pkgOf g) [(a, 0x40), (a + 0x140, 0xD0)] with
      | some bad => s.haltSlot g k (some bad)
      | none => s.restoreSlot g k
    else s
  .next (s1.commandDone g)

/-- SLOT_RELEASE (R326). -/
def execSlotRelease (g : CoreId) (slot : BitVec 8) (s : State) : Out :=
  let st := ((s.core g).slot slot.toNat).st
  .next ((if st == .evicted || st == .halted then s.freeSlot g slot.toNat else s).commandDone g)

/-- CTXBASE_WRITE (R326). -/
def execCtxbaseWrite (g : CoreId) (val : Word) (s : State) : Out := .next (s.ctxbaseWrite g val)

/-- L2CFG_WRITE: a write to CBHI waits until no collective of the cluster is outstanding (R327). -/
def execL2cfgWrite (cl : Nat) (val : Word) (s : State) : Out :=
  if (List.range 8).any fun j => !(s.core (cl * 8 + j)).colls.isEmpty then s.again (.l2cfgWrite cl val)
  else .next (s.l2cfgWrite cl val)

/-- HSIGV: signal(HSIGA, value) at the token's home; nothing where HSIGA is 0 or outside the tenant's windows (R333). -/
def execHsigv (pkg : Nat) (t : BitVec 6) (val : BitVec 32) (s : State) : Out :=
  let pa := (s.tenant pkg t.toNat).hsiga.toNat
  let n := signed 32 val.toNat
  if pa = 0 then .next s
  else s.tenantSignal pkg t pa (.tokenSignalAtHome (.host pkg t) pa n) fun w => tokSignal w n

/-- MMIO_REGISTER_WRITE of Grexa or physical function 0, or of a tenant's virtual function, which reaches that tenant's blocks alone; QDOOR
and HSIGV act as they are written (R299, R312, R332, R333, R335). -/
def execMmioRegisterWrite (place : RegPlace) (val : Word) (s : State) : Out :=
  let p := paPkg place.pa
  if !s.hostReaches place.vf place.pa then .next s
  else if s.mmioHeld 0 place.pa then s.again (.mmioRegisterWrite place val)
  else match s.regAt place.pa with
    | .queue t q 0x20 => execQdoor p (BitVec.ofNat 6 t) (BitVec.ofNat 4 q) (val.setWidth 32) s
    | .host t 0x88 => execHsigv p (BitVec.ofNat 6 t) (val.setWidth 32) s
    | _ => .next (s.mmioWrite place.pa val)

end Sys2Proof.Machine
end

