-- ==== Sys2Proof/Machine/HostPort.lean ====
section
/-!
DEFINITION. The host port, the far tier's link and the fabric's ports (R332 to R338): apertures, AtomicOps, host signals.
-/

namespace Sys2Proof.Machine

/-- A completion sent to the host. -/
def State.replyHost (s : State) (p : Nat) (r : HostReply) : State :=
  s.setPkg p { s.pkg p with hostReplies := (s.pkg p).hostReplies ++ [r] }

/-- A host write does nothing there: its package is off or does not admit it, or it is the granary (R329, R334, R340). -/
def State.hostDropped (s : State) (p : Nat) (t : BitVec 6) (pa n : Nat) : Bool :=
  s.homeBusy pa || !s.admits p t pa n || match s.region pa with
    | .granary _ => true
    | _ => false

/-- HOST_BAR2_WRITE: performed in arrival order, or dropped (R334, R335); part of a failing codeword is not merged (R366). -/
def execHostBar2Write (pkg : Nat) (t : BitVec 6) (off : BitVec 36) (bytes : Nat) (val : Nat) (s : State) : Out :=
  match s.aperture pkg t off bytes with
  | none => .next s
  | some pa =>
    if s.hostDropped pkg t pa bytes then .next s
    else if s.mergesFailing pa bytes then .next (s.memoryError pkg t 2 pa 0)
    else .next (s.writeHome pa (leBytes bytes val))

/-- Cores of a package that work (R371). -/
def State.packageCores (s : State) (p : Nat) : Nat := ((List.range 1024).filter fun i => !s.fusedOff (p * 1024 + i)).length

/-- Clusters of a package that work (R371). -/
def State.packageClusters (s : State) (p : Nat) : Nat :=
  ((List.range 128).filter fun k => !((List.range 8).all fun j => s.fusedOff (p * 1024 + 8 * k + j))).length

/-- The local address of the register that a function's space maps at an offset: BAR0 the tenant block, BAR1 the host block, and for physical
function 0 the snapshot controls (R332, R333, R373). -/
def functionReg (t : BitVec 6) (bar : BitVec 2) (off : Nat) : Option Nat :=
  let block := 0x300008000000
  match bar.toNat with
  | 0 => if off < 0x10000 then some (block + 0x100000 + t.toNat * 0x10000 + off) else none
  | 1 => if off < 0x1000 then some (block + 0x500000 + t.toNat * 0x1000 + off) else none
  | 3 => if off < 0x20 then some (block + 0x700000 + off) else none
  | _ => none

/-- What a host read of a function's registers gives (R312, R332, R333, R373). For physical function 0, whose layout the spec does not give, the
counts of working cores and clusters follow the snapshot controls, and the latched snapshot lies at 0x1000 (R371, R372). A read of
registers is one of an aligned doubleword (DESIGN CHOICE, log 58). -/
def State.hostRegister (s : State) (p : Nat) (t : BitVec 6) (bar : BitVec 2) (off n : Nat) : Option (List Byte) :=
  if bar = 3 ∧ 0x1000 ≤ off then some (((s.pkg p).snap.copy.drop (off - 0x1000)).take n)
  else if n ≠ 8 ∨ off % 8 ≠ 0 then none
  else if bar = 3 ∧ off = 0x20 then some (leBytes 8 (s.packageCores p))
  else if bar = 3 ∧ off = 0x28 then some (leBytes 8 (s.packageClusters p))
  else ((functionReg t bar off).bind fun l => s.mmioRead (p * 2 ^ 46 + l)).map fun v => leBytes 8 v.toNat

/-- HOST_BAR2_READ: the bytes, or Unsupported Request (R334, R335); and a read of the function's other spaces (R332). -/
def execHostBar2Read (pkg : Nat) (t : BitVec 6) (place : BarPlace) (bytes : Nat) (s : State) : Out :=
  if place.bar ≠ 2 then
    .next (s.replyHost pkg (match if (s.pkg pkg).live then s.hostRegister pkg t place.bar place.off.toNat bytes else none with
      | some bs => .data bs
      | none => .unsupportedRequest))
  else match s.aperture pkg t place.off bytes with
  | none => .next (s.replyHost pkg .unsupportedRequest)
  | some pa =>
    let pas := (List.range bytes).map (pa + ·)
    if s.readBusy pa bytes then s.again (.hostBar2Read pkg t place bytes)
    else if s.homeBusy pa || !s.admits pkg t pa bytes then .next (s.replyHost pkg (.data (pas.map Config.hostErrorByte)))
    else
      let bs := pas.map fun x => if s.failing x then Config.hostErrorByte x else memGet s.mem x
      let s1 := match pas.find? s.failing with
        | some x => s.memoryError pkg t 2 x 0
        | none => s.noteReads pas
      .next (s1.replyHost pkg (.data bs))

/-- The AMO that performs an AtomicOp: FetchAdd, Swap, CAS (R98, R334). -/
def atomicForm (op : BitVec 2) : Option Nat :=
  match op.toNat with
  | 0 => some 0
  | 1 => some 8
  | 2 => some 9
  | _ => none

/-- An AtomicOp's address that its completer does not serve: misaligned, a token cell, the granary (R334). -/
def State.atomicAborts (s : State) (pa n : Nat) : Bool :=
  pa % n != 0 || match s.region pa with
    | .cell _ | .granary _ => true
    | _ => false

/-- HOST_ATOMIC_OP: a pod-scope AMO at the home that returns the old value, Unsupported Request, or Completer Abort (R334). -/
def execHostAtomicOp (pkg : Nat) (t : BitVec 6) (off : BitVec 36) (op : BitVec 2) (bytes : Nat) (val cmp : Word)
    (s : State) : Out :=
  match s.aperture pkg t off bytes, atomicForm op with
  | some pa, some f =>
    if bytes ≠ 4 ∧ bytes ≠ 8 then .next (s.replyHost pkg .unsupportedRequest)
    else if s.atomicAborts pa bytes then .next (s.replyHost pkg .completerAbort)
    else if s.readBusy pa bytes then s.again (.hostAtomicOp pkg t off op bytes val cmp)
    else
      let failed := HostReply.data ((List.range bytes).map fun i => Config.hostErrorByte (pa + i))
      if s.homeBusy pa || !s.admits pkg t pa bytes then .next (s.replyHost pkg failed)
      else if s.failing pa then .next ((s.memoryError pkg t 2 pa 0).replyHost pkg failed)
      else
        let old := leNat (memBytes s.mem pa bytes)
        let new := amoNew f (8 * bytes) old (val.toNat % 2 ^ (8 * bytes)) (cmp.toNat % 2 ^ (8 * bytes))
        .next ((s.writeHome pa (leBytes bytes new)).replyHost pkg (.data (leBytes bytes old)))
  | _, _ => .next (s.replyHost pkg .unsupportedRequest)

/-- CXL_LINK_FAILURE: from now on reads of the port's window meet uncorrectable errors (R337). -/
def execCxlLinkFailure (pkg : Nat) (port : BitVec 1) (s : State) : Out :=
  let y := s.pkg pkg
  .next (s.setPkg pkg { y with cxlDown := y.cxlDown.set port.toNat true })

/-- CXL_WRITE_ACK_LOST: a record of KIND 5 to every tenant whose windows cover the address (R337, R368). -/
def execCxlWriteAckLost (pkg : Nat) (pa : Pa) (s : State) : Out :=
  match s.region pa with
  | .cxl _ => .next (if paPkg pa = pkg then s.pageError 5 pa false else s)
  | _ => .next s

/-- FABRIC_PORT_FAILURE: the peers of the port, and those of its plane where every port of it has failed, carry the requests of its lines, and
no order or result changes (R338; State.portsFor). -/
def execFabricPortFailure (pkg : Nat) (port : BitVec 7) (s : State) : Out :=
  let y := s.pkg pkg
  .next (if y.ports.contains port.toNat then s else s.setPkg pkg { y with ports := y.ports ++ [port.toNat] })

end Sys2Proof.Machine
end

