-- ==== Sys2Proof/Machine/Park.lean ====
section
/-!
DEFINITION. Parked continuations: PARK (R341 to R346), the fallow engine's ageing, moves and wakes (R348 to R352), near
blocks (R353, R354) and Grexa's requests (R355 to R358, R360).
-/

namespace Sys2Proof.Machine

/-! ### Grexa's space (R349, R354) -/

/-- The first run that holds a piece of n bytes at an alignment, inside one of the windows, which the test accepts: its address,
and the runs left (DESIGN CHOICE, log 17). -/
def takeSpace (ws : List (Nat × Nat)) (ok : Nat → Bool) (n align : Nat) : List (Nat × Nat) → Option (Nat × List (Nat × Nat))
  | [] => none
  | (a, m) :: r =>
    let found := ws.findSome? fun w =>
      let b := ceilDiv (max a w.1) align * align
      if b + n ≤ min (a + m) (w.1 + w.2) ∧ ok b then some b else none
    match found with
    | some b =>
      some (b, (if b = a then [] else [(a, b - a)]) ++ (if b + n = a + m then [] else [(b + n, a + m - b - n)]) ++ r)
    | none => (takeSpace ws ok n align r).map fun x => (x.1, (a, m) :: x.2)

/-- Near space may be supplied there: HBM of the package inside one window of the tenant. -/
def State.nearOk (s : State) (p t n a : Nat) : Bool :=
  s.region a == .hbm && paPkg a == p && s.region (a + n - 1) == .hbm && s.inWindow p t a n

/-- Far space may be supplied there: CXL memory of the package inside one window of the tenant. -/
def State.farOk (s : State) (p t n a : Nat) : Bool :=
  let cxl := match s.region a, s.region (a + n - 1) with
    | .cxl i, .cxl j => i == j
    | _, _ => false
  cxl && paPkg a == p && s.inWindow p t a n

/-- Bytes of flash (R2). -/
def flashBytes : Nat := 16000000000000

/-- Space of a tier taken from Grexa (R349). -/
def State.takeTier (s : State) (p t tier n align : Nat) : Option (Nat × State) :=
  let y := s.pkg p
  let ws := (s.tenant p t).cfg.windows
  match tier with
  | 0 => (takeSpace ws (s.nearOk p t n) n align y.nearFree).map fun x => (x.1, s.setPkg p { y with nearFree := x.2 })
  | 1 => (takeSpace ws (s.farOk p t n) n align y.farFree).map fun x => (x.1, s.setPkg p { y with farFree := x.2 })
  | _ => (takeSpace [(0, flashBytes)] (fun _ => true) n align y.deepFree).map fun x => (x.1, s.setPkg p { y with deepFree := x.2 })

/-- Runs without a piece of n bytes at an address. -/
def cutRuns (l : List (Nat × Nat)) (a n : Nat) : List (Nat × Nat) :=
  l.flatMap fun w =>
    if w.1 + w.2 ≤ a ∨ a + n ≤ w.1 then [w]
    else (if w.1 < a then [(w.1, a - w.1)] else []) ++ (if a + n < w.1 + w.2 then [(a + n, w.1 + w.2 - a - n)] else [])

/-- Runs without the retired pages of a package (R370). -/
def State.withoutRetired (s : State) (p : Nat) (l : List (Nat × Nat)) : List (Nat × Nat) :=
  (s.pkg p).retired.foldl (fun l a => cutRuns l a 65536) l

/-- Space of a tier returned to Grexa, without retired pages (R370). -/
def State.giveTier (s : State) (p tier a n : Nat) : State :=
  let y := s.pkg p
  match tier with
  | 0 => s.setPkg p { y with nearFree := y.nearFree ++ s.withoutRetired p [(a, n)] }
  | 1 => s.setPkg p { y with farFree := y.farFree ++ s.withoutRetired p [(a, n)] }
  | _ => s.setPkg p { y with deepFree := y.deepFree ++ [(a, n)] }

/-! ### Near blocks (R353, R354) -/

/-- Block size of a tenant. -/
def State.blockBytes (s : State) (p : Nat) (t : BitVec 6) : Nat := 2 ^ (s.tenant p t.toNat).blog2.toNat

/-- A core's cache filled to n blocks, as far as near space allows. -/
def State.fillBlocks (s : State) (g : CoreId) (t : BitVec 6) : Nat → State
  | 0 => s
  | n + 1 =>
    let b := s.blockBytes (pkgOf g) t
    match s.takeTier (pkgOf g) t.toNat 0 b b with
    | none => s
    | some (a, s1) => (s1.setCore g { s1.core g with blocks := (s1.core g).blocks ++ [a] }).fillBlocks g t n

/-- The blocks of a core's cache taken back, at the size that they were granted at. -/
def State.takeBackBlocks (s : State) (g : CoreId) (bytes : Nat) : State :=
  let c := s.core g
  (c.blocks.foldl (fun s a => s.giveTier (pkgOf g) 0 a bytes) s).setCore g { c with blocks := [] }

/-- The cores of a tenant's clusters. -/
def State.coresOf (s : State) (p t : Nat) : List CoreId :=
  ((List.range 1024).filter fun i => s.inSet p t (i / 8)).map (p * 1024 + ·)

/-- A block of the core in focus for a register, or 0 (R354). -/
def State.popBlock (s : State) (d : Reg) : State :=
  let s1 := s.setCur { s.cur with blocks := s.cur.blocks.drop 1 }
  s1.complete s.who d (BitVec.ofNat 64 (s.cur.blocks.headD 0)) none

/-- BALLOC: s[d] := a block of the core's cache, or 0 (R354). -/
def execBalloc (d : Reg) (s : State) : Out :=
  s.issue [] [d] fun s =>
    s.endsWith (s.setCo (s.co.setPend d)) (.balloc d) fun u => u.popBlock d

/-- A block that goes to the cache of the core in focus, or to Grexa where that is full or a page of it is retired (R354, R370). -/
def State.pushBlock (s : State) (a : Nat) : State :=
  let p := pkgOf s.focus
  let n := s.blockBytes p s.co.tenant
  if s.cur.blocks.length < 16 && s.withoutRetired p [(a, n)] == [(a, n)] then s.setCur { s.cur with blocks := a :: s.cur.blocks }
  else s.giveTier p 0 a n

/-- BFREE: the block is given back at the commit (R354). -/
def execBfree (a : Reg) (s : State) : Out :=
  s.issue [a] [] fun s =>
    let x := s.rd a
    let p := pkgOf s.focus
    let n := s.blockBytes p s.co.tenant
    if x.toNat % n ≠ 0 ∨ !s.nearOk p s.co.tenant.toNat n x.toNat then s.trapHere 6 x
    else s.endsWith s (.bfree x.toNat) fun u => u.pushBlock x.toNat

/-- BLOG2_WRITE: a new block size empties the caches of the tenant's clusters and fills them again (R347, R354). -/
def execBlog2Write (pkg : Nat) (t : BitVec 6) (val : Word) (s : State) : Out :=
  let x := s.tenant pkg t.toNat
  let n := field val 0 5
  if n < 12 ∨ 26 < n then .next s
  else
    let old := 2 ^ x.blocklog.toNat
    let cores := s.coresOf pkg t.toNat
    let s1 := cores.foldl (fun s g => s.takeBackBlocks g old) s
    let s2 := s1.setTenant pkg t.toNat { s1.tenant pkg t.toNat with blog2 := BitVec.ofNat 64 n, blocklog := BitVec.ofNat 64 n }
    .next (cores.foldl (fun s g => s.fillBlocks g t 16) s2)

/-! ### The block table as the engine sees it (R148, R343, R345) -/

/-- An entry written, as a write of the package order (R152, R349). -/
def State.setTableWord (s : State) (btab k : Nat) (e : Word) : State :=
  if openRun (tableEntry btab k) 8 then s.writeHome (tableEntry btab k) (leBytes 8 e.toNat) else s

/-! ### Park entries (R345, R359) -/

/-- A park entry freed, with its watch and its place among those waiting for a slot. -/
def State.dropEntry (s : State) (p e : Nat) (x : ParkEntry) : State :=
  let y := s.pkg p
  let z := s.tenant p x.tenant.toNat
  let s1 := s.setPkg p { y with
    park := Tab.del y.park e, mirror := Tab.del y.mirror e
    watches := y.watches.filter (·.2 != e), waitSlot := y.waitSlot.filter (· != e) }
  s1.setTenant p x.tenant.toNat { z with pused := z.pused - 1 }

/-- A park record (R360). -/
def State.parkRecord (s : State) (p : Nat) (x : ParkEntry) (reason block : Nat) : State :=
  s.record p x.tenant [4, BitVec.ofNat 64 reason, x.cid.setWidth 64, BitVec.ofNat 64 x.wtok, BitVec.ofNat 64 x.btab,
    BitVec.ofNat 64 block]

/-- Bytes of a park context's space. -/
def ParkEntry.ctxBytes (x : ParkEntry) : Nat := ceilDiv x.csize 64 * 64

/-! ### PARK (R341 to R346) -/

/-- The park context's bytes (R346). -/
def Co.parkImage (c : Co) (live : Word) : List Byte :=
  ((c.header false live ++ c.record Ext.reset false false false).flatMap fun w => leBytes 8 w.toNat) ++ c.body live

/-- The registers that a park context restores, but s1 and s[D] (R346, R351). -/
def parkedCo (m : List Host.Cell) (a : Pa) : Co :=
  let c := (Co.reset.ofHeader (wordsAt m a)).ofRecord (wordsAt m (a + 0x40))
  c.ofBody (wordsAt m a 4) m (a + 0x110)

/-- The fields of a block-table header that PARK reads (R148). -/
structure ParkHead where
  len    : Nat
  lpb    : Nat
  lbp    : Nat
  ptok   : Word
  nent   : Nat
  deriving DecidableEq, Repr

/-- The header from its bytes. -/
def ParkHead.of (b : List Byte) : ParkHead :=
  ⟨leAt b 0 8, leAt b 8 1, leAt b 9 1, BitVec.ofNat 64 (leAt b 0x10 8), leAt b 0x18 8⟩

/-- NUSED (R344). -/
def ParkHead.nused (h : ParkHead) : Nat := ceilDiv h.len (2 ^ h.lpb)

/-- The pod address at which a run translates for a load and a store, where it is one contiguous range (R343). -/
def State.contiguous (s : State) (va : Word) (n : Nat) : Option Pa :=
  match s.translate s.space .load va n, s.translate s.space .store va n with
  | .ok a, .ok b =>
    let l := segBytes a
    if l = segBytes b ∧ l = (List.range n).map (l.headD 0 + ·) then some (l.headD 0) else none
  | _, _ => none

/-- An 8-byte word that PARK names by an address, translated for a load or a store: cause 5 where it is misaligned or does not translate
(R342). -/
def State.parkWord (s : State) (k : Kind) (w : Word) : Acc Pa :=
  if w.toNat % 8 ≠ 0 then .trap s ⟨5, w, 0, none⟩
  else match s.translated k w 8 with
    | .ok t segs => .ok t (segs.headD ⟨0, 0, false⟩).pa
    | .trap t x => .trap t { x with cause := if x.cause = 8 then 8 else 5, val := w }
    | .cut => .cut
    | .wait => .wait
    | .walk x => .walk x

/-- The wake word: in HBM or CXL memory of this package (R342). -/
def State.wakeWord (s : State) (w : Word) : Acc Pa :=
  (s.parkWord .load w).bind fun t pa =>
    match t.homeOf pa with
    | .slice p _ => if p = pkgOf t.focus then .ok t pa else .trap t ⟨5, w, 0, none⟩
    | _ => .trap t ⟨5, w, 0, none⟩

/-- PTOK translated for a store; 0 where there is none (R342). -/
def State.promotionToken (s : State) (pt : Word) : Acc Pa := if pt = 0 then .ok s 0 else s.parkWord .store pt

/-- The first of the reasons 1, 2, 3, 4 and 8 that applies (R343); the table's address where none does. An entry in STATE 4 counts as
still promoting, its blocks being near too (DESIGN CHOICE, log 67). -/
def State.parkReason (s : State) (b : Word) (h : ParkHead) : Except Nat Pa :=
  let e := s.ext
  if s.co.pend &&& 0xFFFFFFFE ≠ 0 then .error 1
  else if (e.openB.map (·.left)).getD 0 ≠ 0 ∨ e.sealedB ≠ [] then .error 2
  else if e.vpend ≠ [] ∨ e.cpend ≠ [] then .error 3
  else if h.lpb + h.lbp < 12 ∨ 26 < h.lpb + h.lbp ∨ h.nent < h.nused then .error 4
  else match s.contiguous b (0x40 + 8 * h.nused) with
    | none => .error 4
    | some bt =>
      if (s.pkg (pkgOf s.focus)).park.any fun x => x.2.tenant == s.co.tenant && x.2.btab == bt && (x.2.st == 3 || x.2.st == 4)
      then .error 8 else .ok bt

/-- PARK is complete without parking: its chunk has committed. -/
def State.parkOver (s : State) : State := (s.setExt { s.ext with ended := false }).settle

/-- PARK did not park: s[D] := -1 and the reason in the next register (R342, R343). -/
def State.parkRefused (s : State) (d : Reg) (r : Nat) : State := ((s.wr d (-1)).wr (d + 1) (BitVec.ofNat 64 r)).parkOver

/-- A park entry that is free, where the tenant may use one more (R343). -/
def State.freeEntry (s : State) (p : Nat) (t : BitVec 6) : Option Nat :=
  let x := s.tenant p t.toNat
  let used := (s.pkg p).park.map (·.1)
  if x.cfg.plimit ≤ x.pused ∨ 65536 ≤ used.length then none
  else (List.range (used.length + 1)).find? fun e => !used.contains e

/-- The blocks of a table that are far or deep (R348). -/
def State.awayAt (s : State) (bt nused : Nat) : List Nat :=
  (List.range nused).filter fun k => let t := entryTier (s.tableWord bt k); t == 1 || t == 2

/-- The coroutine leaves its slot and stands in a park entry, with its context near and its wake watch registered (R342). -/
def State.parkNow (s : State) (d : Reg) (live : Word) (w bt pt : Pa) (h : ParkHead) (e a : Nat) : State :=
  let g := s.focus
  let p := pkgOf g
  let t := s.co.tenant
  let k := s.cur.running.getD 0
  let co := ((s.wr d 0).retire.co).keep live
  let img := co.parkImage live
  let x : ParkEntry := {
    st := 1, tenant := t, ctier := 0, stage := 0, woken := false, cid := s.co.cid, wtok := w, btab := bt, ctx := a
    nused := h.nused, csize := img.length, age := 0, wval := 0, ptokp := pt, reg := d, blog := h.lpb + h.lbp
    still := s.awayAt bt h.nused, resumed := false, pos := 0, failed := [], short := false }
  let s1 := s.engineWrite (img.zipIdx.map fun y => (a + y.2, y.1)) []
  let s2 := s1.setEntry p e x
  let s3 := s2.setPkg p { s2.pkg p with watches := (s2.pkg p).watches ++ [(w, e)] }
  let s4 := s3.setTenant p t.toNat { s3.tenant p t.toNat with pused := (s3.tenant p t.toNat).pused + 1 }
  ((s4.setCur { s4.cur with running := none, prefetch := [] }).freeSlot g k).post (.coreResume g)

/-- Bytes of the park context that a PARK would write. -/
def Co.parkBytes (c : Co) (live : Word) : Nat := ceilDiv (0x110 + (c.keep live).explicitSize live - 64) 64 * 64

/-- PARK once its checks have passed and none of the first reasons applies; it waits for the acknowledgement of earlier posted writes
(R342). A lost write that reason 7 reports stays recorded, for later PARKs too, until a fence takes it (DESIGN CHOICE, log 67). -/
def State.parkTry (s : State) (d : Reg) (live : Word) (w bt pt : Pa) (h : ParkHead) : Out :=
  let p := pkgOf s.focus
  let t := s.co.tenant
  if s.ext.unacked ≠ [] then .next s.stall
  else
    let s1 := s.setExt { s.ext with touched := [], wide := false }
    if s.ext.lost ≠ [] then .next (s1.parkRefused d 7)
    else match s1.freeEntry p t, s1.takeTier p t.toNat 0 (s.co.parkBytes live) 64 with
    | some e, some (a, s2) =>
      if s.waitersFull w then .next (s1.parkRefused d 6)
      else if s.failing w then .next (s.takeTrap ⟨8, s.rd d, 0, some w⟩ s.co.pc)
      else
        let v := memWord s.mem w
        if v ≠ 0 then .next ((s1.wr 1 v).wr d 0).parkOver
        else .next (s2.parkNow d live w bt pt h e a)
    | _, _ => .next (s1.parkRefused d 5)

/-- PARK: its chunk commits first, and every check follows (R342, R343; DEDUCED, log 33). -/
def execPark (d : Reg) (live : Word) (s : State) : Out :=
  s.issue [d, d + 1] [] fun s =>
    if !s.cur.vq.isEmpty then .next s.stall
    else match s.ownCommit with
      | none => .next (s.notYet s)
      | some c =>
        let t := c.setExt { c.ext with ended := true }
        let trap := fun (x : Trap) => Host.Outcome.next (t.takeTrap x s.co.pc)
        t.access (t.wakeWord (s.rd d)) fun t w =>
          let b := s.rd (d + 1)
          if b.toNat % 64 ≠ 0 then trap ⟨5, b, 0, none⟩
          else t.access (t.chunkRead b 64) fun u bs =>
            let h := ParkHead.of bs
            u.access (u.promotionToken h.ptok) fun v pt =>
              match v.parkReason b h with
              | .error r => .next (v.parkRefused d r)
              | .ok bt => v.parkTry d live w bt pt h

/-! ### Ageing (R347, R348) -/

/-- An entry whose stage's dwell is over: it is due to be demoted from that tier. -/
def Tenant.dwellOver (z : Tenant) (x : ParkEntry) (stage : Nat) : Bool :=
  let dwell := if stage = 0 then z.ndwell.toNat else z.fdwell.toNat
  x.st == 1 && !x.woken && x.stage == stage && dwell != 0xFFFFFFFF && dwell ≤ x.age

/-- PARK_CLOCK_TICK: every parked entry counts it, the dwells are looked at, moves that lacked space are tried again (R348, R350). -/
def execParkClockTick (pkg : Nat) (s : State) : Out :=
  let y := s.pkg pkg
  let older := fun (x : Nat × ParkEntry) => if x.2.st = 1 then (x.1, { x.2 with age := (x.2.age + 1) % 2 ^ 32 }) else x
  let aged := y.park.map older
  let evs := aged.flatMap fun x =>
    let z := s.tenant pkg x.2.tenant.toNat
    if z.dwellOver x.2 0 then [Event.nearDwellExpiry pkg x.1]
    else if z.dwellOver x.2 1 then [.farDwellExpiry pkg x.1]
    else if x.2.st != 1 && (s.mover pkg x.1).isNone then [.blockMoveRegistration pkg x.1]
    else []
  .next ((s.setPkg pkg { y with park := aged, mirror := y.mirror.map older }).posts evs)

/-- A demotion from the entry's stage begins (R348). -/
def State.demote (s : State) (p e stage : Nat) : State :=
  match s.entry p e with
  | none => s
  | some x =>
    if (s.tenant p x.tenant.toNat).dwellOver x stage then
      (s.setEntry p e { x with st := 2, pos := 0 }).post (.blockMoveRegistration p e)
    else s

/-- NEAR_DWELL_EXPIRY (R348). -/
def execNearDwellExpiry (pkg : Nat) (e : Nat) (s : State) : Out := .next (s.demote pkg e 0)

/-- FAR_DWELL_EXPIRY (R348). -/
def execFarDwellExpiry (pkg : Nat) (e : Nat) (s : State) : Out := .next (s.demote pkg e 1)

/-! ### Moves (R349) -/

/-- The bytes of a tier's range: flash bytes for the deep tier. -/
def State.tierBytes (s : State) (p tier a n : Nat) : List Byte :=
  if tier = 2 then (List.range n).map fun i => Tab.get 0 (s.pkg p).flash (a + i) else memBytes s.mem a n

/-- The range of a tier in the address map. -/
def tierSegs (tier a n : Nat) : List Seg := if tier = 2 then [] else [⟨a, n, false⟩]

/-- A move registers: its destination, MOV of a block's entry, its locks; or it waits (R258, R349). -/
def State.registerMove (s : State) (p e : Nat) (x : ParkEntry) (block : Option Nat) (frm into src len align : Nat) : Out :=
  match s.takeTier p x.tenant.toNat into len align with
  | none =>
    .next (if into = 0 && !x.short then (s.setEntry p e { x with short := true }).parkRecord p x 2 0 else s)
  | some (dst, s1) =>
    let ss := tierSegs frm src len
    let ds := tierSegs into dst len
    let lines := match block with
      | some k => [lineOf (tableEntry x.btab k)]
      | none => []
    if s.lockMeets p ds ss || s.tablesFull ds ss || s.registrationHeld p ds ss || s.soleBlocks p none lines ||
      64 ≤ (s.pkg p).movers.length then s.again (.blockMoveRegistration p e)
    else
      let s2 := match block with
        | some k => s1.setTableWord x.btab k (mkEntry frm true src)
        | none => s1
      let s3 := s2.registerRange p s2.ids ds ss x.ptokp
      let bad := if frm = 2 then none else s.firstFailing src len
      let m : Mover := ⟨e, block, s2.ids, frm, into, src, dst, len, s.tierBytes p frm src len, bad⟩
      let s4 : State := { s3.setPkg p { s3.pkg p with movers := (s3.pkg p).movers ++ [m] } with ids := s2.ids + 1 }
      .next (s4.post (if block.isSome then .blockMoveCompletion p e else .contextMoveCompletion p e))

/-- The next block that a demotion moves; one that was far already at the PARK stays until promotion (R348, R358). -/
def State.nextDown (s : State) (p : Nat) (x : ParkEntry) : Option Nat :=
  (List.range x.nused).find? fun k =>
    let e := s.tableWord x.btab k
    x.pos ≤ k && entryTier e == x.stage && !(x.stage == 1 && x.still.contains k) && !s.shared p e

/-- The next block that a promotion moves: newest first (R350, R358). -/
def State.nextUp (s : State) (p : Nat) (x : ParkEntry) : Option Nat :=
  (List.range x.pos).reverse.find? fun k =>
    let e := s.tableWord x.btab k
    (entryTier e == 1 || entryTier e == 2) && !s.shared p e

/-- The block is settled: near, absent, or its promotion has failed (R350). -/
def State.settledBlock (s : State) (x : ParkEntry) (k : Nat) : Bool :=
  let e := s.tableWord x.btab k
  (entryTier e == 0 && !entryMov e) || entryTier e == 3 || x.failed.contains k

/-- The coroutine may resume: its context is near and the newest blocks, RDEPTH of the header as it stands, are settled (R345, R350). -/
def State.mayResume (s : State) (x : ParkEntry) : Bool :=
  !x.resumed && x.st == 3 && x.ctier == 0 && (List.range x.nused).all fun k => k + s.rdepth x < x.nused || s.settledBlock x k

/-- BLOCK_MOVE_REGISTRATION: the entry's next move, of its context or of a block, one at a time; a demotion that has moved
all there is ends, a wake turns it into a promotion, and an entry whose promotion is over is freed (R348 to R350). -/
def execBlockMoveRegistration (pkg : Nat) (e : Nat) (s : State) : Out :=
  match s.entry pkg e with
  | none => .next s
  | some x =>
    if (s.mover pkg e).isSome then .next s
    else if x.st = 2 then
      if x.woken then .next ((s.setEntry pkg e { x with st := 3, pos := x.nused }).post (.blockMoveRegistration pkg e))
      else if x.ctier = x.stage then s.registerMove pkg e x none x.stage (x.stage + 1) x.ctx x.ctxBytes 64
      else match s.nextDown pkg x with
        | some k =>
          let n := 2 ^ x.blog
          (s.setEntry pkg e { x with pos := k }).registerMove pkg e { x with pos := k } (some k) x.stage (x.stage + 1)
            (entryPa (s.tableWord x.btab k)) n n
        | none => .next (s.setEntry pkg e { x with st := 1, stage := x.stage + 1, age := 0, pos := 0 })
    else if x.st = 3 ∨ x.st = 4 then
      if x.ctier ≠ 0 then s.registerMove pkg e x none x.ctier 0 x.ctx x.ctxBytes 64
      else if s.mayResume x then .next (s.post (.parkResume pkg e))
      else match s.nextUp pkg x with
        | some k =>
          let n := 2 ^ x.blog
          let w := s.tableWord x.btab k
          (s.setEntry pkg e { x with pos := k + 1 }).registerMove pkg e { x with pos := k + 1 } (some k) (entryTier w) 0 (entryPa w) n n
        | none => .next (if x.resumed then s.dropEntry pkg e x else s)
    else .next s

/-- A mover taken off, its locks released. -/
def State.endMove (s : State) (p : Nat) (m : Mover) : State :=
  (s.setPkg p { s.pkg p with movers := (s.pkg p).movers.filter (·.id != m.id) }).releaseLocks p m.id

/-- The bytes of a move at their destination (R349). -/
def State.putTier (s : State) (p : Nat) (m : Mover) : State :=
  if m.into = 2 then
    s.setPkg p { s.pkg p with
      flash := (m.data.zipIdx).foldl (fun l y => if y.1 = 0 then Tab.del l (m.dst + y.2) else Tab.set l (m.dst + y.2) y.1) (s.pkg p).flash }
  else s.engineWrite (m.data.zipIdx.map fun y => (m.dst + y.2, y.1)) []

/-- A promotion of a block has ended: PTOK counts it, moved or not (R350, R360). -/
def State.promotionSignal (s : State) (p : Nat) (x : ParkEntry) (m : Mover) : State :=
  if m.into = 0 ∧ x.ptokp ≠ 0 then s.post (.tokenSignalAtHome (.unit p x.tenant x.cid) x.ptokp (-1)) else s

/-- BLOCK_MOVE_COMPLETION: TIER and PA rewritten, MOV cleared, the mirror updated, the source returned; where the data
failed the block keeps its place (R349, R359, R360). -/
def execBlockMoveCompletion (pkg : Nat) (e : Nat) (s : State) : Out :=
  match s.entry pkg e, s.mover pkg e with
  | some x, some m =>
    match m.block with
    | none => .next s
    | some k =>
      let x1 := { x with
        pos := if m.into = 0 then k else k + 1, failed := if m.into = 0 ∧ m.bad.isSome then k :: x.failed else x.failed
        still := x.still.filter (· != k) }
      let s1 := match m.bad with
        | some pa =>
          (((s.memoryError pkg x.tenant 2 pa x.cid).setTableWord x.btab k (mkEntry m.frm false m.src)).parkRecord pkg x 4 k).giveTier
            pkg m.into m.dst m.len
        | none => ((s.putTier pkg m).setTableWord x.btab k (mkEntry m.into false m.dst)).giveTier pkg m.frm m.src m.len
      let x2 := { x1 with woken := ((s1.entry pkg e).getD x).woken, wval := ((s1.entry pkg e).getD x).wval }
      .next ((((s1.endMove pkg m).setEntry pkg e x2).promotionSignal pkg x m).post (.blockMoveRegistration pkg e))
  | _, _ => .next s

/-- CONTEXT_MOVE_COMPLETION: CTX and CTIER rewritten; where the context failed the continuation is lost (R349, R360). -/
def execContextMoveCompletion (pkg : Nat) (e : Nat) (s : State) : Out :=
  match s.entry pkg e, s.mover pkg e with
  | some x, some m =>
    if m.block.isSome then .next s
    else match m.bad with
      | some pa =>
        let s1 := ((s.endMove pkg m).giveTier pkg m.into m.dst m.len).giveTier pkg m.frm m.src m.len
        .next (((s1.memoryError pkg x.tenant 2 pa x.cid).parkRecord pkg x 3 0).dropEntry pkg e x)
      | none =>
        let s1 := ((s.putTier pkg m).endMove pkg m).giveTier pkg m.frm m.src m.len
        .next ((s1.setEntry pkg e { (s1.entry pkg e).getD x with ctx := m.dst, ctier := m.into }).post (.blockMoveRegistration pkg e))
  | _, _ => .next s

/-! ### Waking and resuming (R350, R351) -/

/-- WAKE_WRITE: a wake write of a word has been taken, with WVAL, WOKEN and the arming of PTOK: the entries that watched it go on to
promote (R350). -/
def execWakeWrite (pa : Pa) (_ : Word) (s : State) : Out :=
  let p := paPkg pa
  .next (s.posts (((s.pkg p).park.filter fun x => x.2.wtok == pa && x.2.woken).map fun x => .blockMoveRegistration p x.1))

/-- Where a continuation resumes: the core of its CID, else the scan over the tenant's set from the CID's cluster (R351). -/
def State.resumePlace (s : State) (p : Nat) (x : ParkEntry) : Option (CoreId × Nat) :=
  let g := cidCore x.cid
  let t := x.tenant.toNat
  let here := if s.inSet p t (clusterOf g % 128) then [g] else []
  let all := (scan 0 1024 (g % 1024 / 8 * 8)).filterMap fun i => if s.inSet p t (i / 8) then some (p * 1024 + i) else none
  s.firstRoom (here ++ all)

/-- The continuation restored into a slot; a context that fails is lost (R351, R360, R366). -/
def State.restoreParked (s : State) (p e : Nat) (x : ParkEntry) (g : CoreId) (k : Nat) : State :=
  match s.firstFailing x.ctx x.csize with
  | some pa =>
    let s1 := (s.memoryError p x.tenant 2 pa x.cid).parkRecord p x 3 0
    (s1.giveTier p 0 x.ctx x.ctxBytes).dropEntry p e x
  | none =>
    let live := wordsAt s.mem x.ctx 4
    let co := ((parkedCo s.mem x.ctx).wr 1 x.wval).wr x.reg 0
    let s1 := (s.create g k co (live ||| 2 ||| BitVec.twoPow 64 x.reg.toNat)).giveTier p 0 x.ctx x.ctxBytes
    (s1.setEntry p e { x with st := 3, resumed := true }).post (.blockMoveRegistration p e)

/-- A continuation of the tenant waits for a slot already (R351). -/
def State.slotAwaited (s : State) (p : Nat) (t : BitVec 6) : Bool :=
  (s.pkg p).waitSlot.any fun e => ((s.entry p e).map (·.tenant)) == some t

/-- PARK_RESUME: the continuation is placed, or waits for a slot in STATE 4, behind those that wait (R351; DEDUCED, log 33). -/
def execParkResume (pkg : Nat) (e : Nat) (s : State) : Out :=
  match s.entry pkg e with
  | none => .next s
  | some x =>
    if !s.mayResume x then .next s
    else match if s.slotAwaited pkg x.tenant then none else s.resumePlace pkg x with
      | some (g, k) => .next (s.restoreParked pkg e x g k)
      | none =>
        let s1 := s.setEntry pkg e { x with st := 4 }
        .next ((s1.setPkg pkg { s1.pkg pkg with waitSlot := (s1.pkg pkg).waitSlot ++ [e] }).post (.blockMoveRegistration pkg e))

/-- PARK_WAIT_SLOT_PLACE: the first continuation of the tenant in STATE 4 takes a slot that has become free (R351). -/
def execParkWaitSlotPlace (pkg : Nat) (t : BitVec 6) (s : State) : Out :=
  let mine := fun e => match s.entry pkg e with
    | some x => x.tenant == t && x.st == 4
    | none => false
  match (s.pkg pkg).waitSlot.find? mine with
  | none => .next s
  | some e =>
    match s.entry pkg e with
    | none => .next s
    | some x =>
      match s.resumePlace pkg x with
      | none => .next s
      | some (g, k) =>
        let s1 := s.setPkg pkg { s.pkg pkg with waitSlot := (s.pkg pkg).waitSlot.filter (· != e) }
        .next ((s1.restoreParked pkg e x g k).soon (.parkWaitSlotPlace pkg t))

/-! ### Requests to Grexa (R355 to R358) -/

/-- A request record (R356). -/
structure Request where
  tenant : BitVec 6
  at_    : Pa
  op     : Nat
  reply  : BitVec 32
  key    : Word
  table  : Nat
  first  : Nat
  count  : Nat
  deriving DecidableEq, Repr

/-- The record at an address. -/
def State.requestAt (s : State) (t : BitVec 6) (a : Pa) : Request :=
  let w := wordsAt s.mem a
  ⟨t, a, (w 0).toNat, (w 1).setWidth 32, w 2, (w 3).toNat, field (w 4) 0 32, field (w 4) 32 32⟩

/-- The request that Grexa serves next. -/
def State.request (s : State) (p : Nat) : Option Request := ((s.pkg p).fwreqs.head?).map fun x => s.requestAt x.1 x.2

/-- The event that serves the first request, where there is one, by the OP of its record as it stands; a record that another OP has been
written into since goes to that OP's event (R356). -/
def State.serveNext (s : State) (p : Nat) : State :=
  match s.request p with
  | none => s
  | some r => s.post (if r.op = 2 then .grexaInsert p else if r.op = 3 then .grexaDrop p else .grexaRefill p)

/-- FWREQ: a record handed to Grexa, behind those before it; it lies in the tenant's windows (R311, R347, R356). -/
def execFwreq (pkg : Nat) (t : BitVec 6) (pa : Pa) (s : State) : Out :=
  let y := s.pkg pkg
  if !s.inWindow pkg t.toNat pa 64 then .next s
  else
    let s1 := s.setPkg pkg { y with fwreqs := y.fwreqs ++ [(t, pa)] }
    .next (if y.fwreqs = [] then s1.serveNext pkg else s1)

/-- The request is served: its reply is under way, and the next is taken (R356). -/
def State.answer (s : State) (p : Nat) (r : Request) (status count : Nat) : State :=
  let y := s.pkg p
  let m : Msg := ⟨2, cidSlot r.reply, 0, BitVec.ofNat 512 (leNat ([r.op, status, count, r.at_].flatMap (leBytes 8)))⟩
  ((s.setPkg p { y with fwreqs := y.fwreqs.drop 1, replies := y.replies ++ [(r.tenant, r.reply, m)] }).post (.grexaReplyRetry p)).serveNext p

/-- GREXA_REPLY_RETRY: the first reply is put into its core's mailbox, or refused and tried again (R356; DESIGN CHOICE, log 13). -/
def execGrexaReplyRetry (pkg : Nat) (s : State) : Out :=
  let y := s.pkg pkg
  match y.replies with
  | [] => .next s
  | (t, dst, m) :: rest =>
    let g := cidCore dst
    if !s.mailboxOpen pkg t dst then .next (s.setPkg pkg { y with replies := rest })
    else if 64 ≤ (s.core g).mailbox.length then s.again (.grexaReplyRetry pkg)
    else .next ((s.setPkg pkg { y with replies := rest }).deliver g m)

/-- GREXA_REFILL: blocks granted to the cache of the reply's core; a record with another OP is refused (R356). -/
def execGrexaRefill (pkg : Nat) (s : State) : Out :=
  match s.request pkg with
  | none => .next s
  | some r =>
    let g := cidCore r.reply
    if r.op = 2 ∨ r.op = 3 then .next (s.serveNext pkg)
    else if r.op ≠ 1 ∨ r.count = 0 ∨ 16 < r.count ∨ pkgOf g ≠ pkg ∨ !s.mailboxOpen pkg r.tenant r.reply then .next (s.answer pkg r 2 0)
    else
      let want := min r.count (16 - (s.core g).blocks.length)
      let s1 := s.fillBlocks g r.tenant want
      let got := (s1.core g).blocks.length - (s.core g).blocks.length
      .next (if 0 < want ∧ got = 0 then s.answer pkg r 2 0 else s1.answer pkg r 0 got)

/-- The entries that a request names, with their numbers. -/
def State.namedEntries (s : State) (r : Request) : List (Nat × Word) :=
  (List.range r.count).map fun i => (r.first + i, s.tableWord r.table (r.first + i))

/-- The table of a request lies in the tenant's windows, as far as the request reads it, and not in the granary, where only a copy writes
(R329, R357; DEDUCED, log 65). -/
def State.tableOk (s : State) (p : Nat) (r : Request) : Bool :=
  let n := 0x40 + 8 * (r.first + r.count)
  s.inWindow p r.tenant.toNat r.table n && openRun r.table n

/-- Bytes of a block of a table. -/
def State.tableBlock (s : State) (table : Nat) : Nat :=
  2 ^ (leNat (memBytes s.mem (table + 8) 1) % 64 + leNat (memBytes s.mem (table + 9) 1) % 64)

/-- A block's count changed; one that falls to 0 is no longer listed. -/
def setCount (l : List (Nat × Nat)) (pa n : Nat) : List (Nat × Nat) := if n = 0 then Tab.del l pa else Tab.set l pa n

/-- GREXA_INSERT: a new key is recorded with its blocks; for one already present the first insertion stands and its blocks
are shared (R357). -/
def execGrexaInsert (pkg : Nat) (s : State) : Out :=
  match s.request pkg with
  | none => .next s
  | some r =>
    let y := s.pkg pkg
    if r.op ≠ 2 then .next (s.serveNext pkg)
    else if !s.tableOk pkg r then .next (s.answer pkg r 2 0)
    else match y.prefixes.find? (·.1 == r.key) with
      | none =>
        let keys := (s.namedEntries r).map fun e => blockKey (entryTier e.2) (entryPa e.2)
        let s1 := s.setPkg pkg { y with
          prefixes := y.prefixes ++ [(r.key, keys)], counts := keys.foldl (fun l k => setCount l k 1) y.counts }
        .next (s1.answer pkg r 0 r.count)
      | some (_, win) =>
        if win.length ≠ r.count then .next (s.answer pkg r 2 0)
        else
          let n := s.tableBlock r.table
          let old := s.namedEntries r
          let s1 := (old.zip win).foldl (fun s x => s.setTableWord r.table x.1.1 (mkEntry 0 false (x.2 % 2 ^ 58))) s
          let z := s1.pkg pkg
          let s2 := s1.setPkg pkg { z with counts := win.foldl (fun l k => setCount l k (Tab.get 0 l k + 1)) z.counts }
          let s3 := old.foldl (fun s e => if entryTier e.2 = 3 then s else s.giveTier pkg (entryTier e.2) (entryPa e.2) n) s2
          .next (s3.answer pkg r 1 r.count)

/-- One reference to a block dropped; the block is free where none is left, and an absent entry names no block (R148, R357). -/
def State.dropBlock (s : State) (p n table : Nat) (e : Nat × Word) : State :=
  if entryTier e.2 = 3 then s else
  let y := s.pkg p
  let pa := entryPa e.2
  let key := blockKey (entryTier e.2) pa
  let left := Tab.get 1 y.counts key - 1
  let s1 := s.setPkg p { y with
    counts := setCount y.counts key left
    prefixes := if left = 0 then y.prefixes.filter fun x => !x.2.contains key else y.prefixes }
  let s2 := if left = 0 then s1.giveTier p (entryTier e.2) pa n else s1
  s2.setTableWord table e.1 (mkEntry 3 false pa)

/-- GREXA_DROP: the counts of the named blocks fall, and the entries become absent (R357). -/
def execGrexaDrop (pkg : Nat) (s : State) : Out :=
  match s.request pkg with
  | none => .next s
  | some r =>
    if r.op ≠ 3 then .next (s.serveNext pkg)
    else if !s.tableOk pkg r then .next (s.answer pkg r 2 0)
    else
      let n := s.tableBlock r.table
      .next (((s.namedEntries r).foldl (fun s e => s.dropBlock pkg n r.table e) s).answer pkg r 0 r.count)

end Sys2Proof.Machine
end

