-- ==== Sys2Proof/Machine/Commit.lean ====
section
/-!
DEFINITION. Events of the weir and of the fabric: the commit of a chunk that has ended and waits (R250), the sole grant
(R252), and a request that the fabric never answers (R339).
-/

namespace Sys2Proof.Machine

/-- What an instruction does at the commit of its chunk, which has waited, where the core in focus has just committed it (R250). -/
def State.runAfter (s : State) : After → State
  | .request pa e => s.sendRequest pa e
  | .message e => s.post e
  | .spawn q => s.sendSpawn q
  | .armCell n op => s.armCell n op
  | .signalCell pa n => s.signalCell pa n
  | .pollCell d n => s.pollCell d n
  | .takeMessage _ => s.popMessage
  | .handler h => s.setHandler h
  | .trigger => s.trigger (pkgOf s.focus) 3
  | .seal => s.sealBatch
  | .balloc d => s.popBlock d
  | .bfree a => s.pushBlock a
  | .weights w => s.setWeights w
  | .stream x start count w rows acts => s.startRows x start count w rows acts
  | .job kind x start count => s.startJob kind x start count
  | .read => s
  | .collective c => s.startColl c
  | .copy id d c => s.startCommand id d c
  | .copies d l => (s.registerOffers d l).getD s

/-- What holds up a commit with what its last instruction does then: a registration that must wait (R239, R252, R260, R330). s is the state after
the commit. -/
def State.afterHeld (s : State) : After → Bool
  | .stream _ _ _ w rows _ => s.rowsHeld rows w
  | .copy id d c => s.commandHeld id d c
  | .copies d l => (s.registerOffers d l).isNone
  | _ => false

/-- What an instruction has found at its issue stands at its chunk's commit: the oldest message (R219, R247). -/
def Core.afterStands (c : Core) : After → Bool
  | .takeMessage m => c.mailbox.head? == m
  | _ => true

/-- A registration that waits for locks counts the cycles from the first time on at which it lacks them (R239). u is the state after its
commit. -/
def State.waitLocks (s u : State) (g : CoreId) (k : Chunk) (a : After) : State :=
  let lacks := match a with
    | .copy id d c => u.commandLacks id d c
    | _ => false
  let since := if lacks then k.since.orElse fun _ => some s.elapsed else none
  let s1 := s.setCore g { s.core g with waiting := some { k with since := since } }
  if lacks && k.since.isNone then s1.post (.copyLockTimeout g) else s1

/-- CHUNK_COMMIT: the chunk that has ended and waits for the weir commits with what its last instruction does then, unless something holds it; it
executes again where what it has found in a register or in the mailbox has changed (R118, R219, R247, R250, R252, R299). -/
def execChunkCommit (g : CoreId) (s : State) : Out :=
  match (s.core g).waiting with
  | none => .next s
  | some k =>
    if s.waitingHeld g k then s.again (.chunkCommit g)
    else if !s.mmioStands k then .next (s.undo g true)
    else match k.after with
      | none => .next (s.commitWaiting g k)
      | some a =>
        let u := { s.commitWaiting g k with focus := g }
        if !(s.core g).afterStands a then .next (s.undo g true)
        else if u.afterHeld a then (s.waitLocks u g k a).again (.chunkCommit g)
        else .next { u.runAfter a with focus := s.focus }

/-- COPY_LOCK_TIMEOUT: a registration that has lacked locks for 4,096 cycles completes with STATUS 5, and its chunk commits (R239). -/
def execCopyLockTimeout (g : CoreId) (s : State) : Out :=
  match (s.core g).waiting with
  | none => .next s
  | some k =>
    match k.after, k.since with
    | some (.copy id d c), some t =>
      let u := { s.commitWaiting g k with focus := g }
      if s.elapsed - t < 4096 || s.waitingHeld g k || !u.commandLacks id d c then s.again (.copyLockTimeout g)
      else .next { u.expireCommand id d c with focus := s.focus }
    | _, _ => .next s

/-- SOLE_GRANT: the grant goes to the first core that still asks for it (R252). -/
def execSoleGrant (pkg : Nat) (s : State) : Out :=
  let y := s.pkg pkg
  if y.sole.isSome then s.again (.soleGrant pkg)
  else match y.soleReqs.dropWhile fun g => !((s.core g).ext.sole && (s.core g).running.isSome) with
    | [] => .next (s.setPkg pkg { y with soleReqs := [] })
    | g :: rest => .next (s.setPkg pkg { y with sole := some g, soleReqs := rest })

/-! ### FABRIC_FAILURE_TIMEOUT (R339) -/

/-- A posted write that is lost, kept for the next fence (R107); a copy's write that is lost ends its copy with STATUS 3 (R240, R339). -/
def State.writeLost (s : State) (w : Who) (pa : Pa) (q : Req) : State :=
  match s.copyOf q.seq with
  | none => s.post (.postedWriteAcknowledged w (paPkg pa) ⟨q.seq, false⟩)
  | some _ =>
    let fails := fun (c : Copy) => if c.away.any (·.1 == q.seq) then { c.acked ⟨q.seq, false⟩ with status := 3 } else c
    { s with clusters := s.clusters.map fun x => if x.2.copies = [] then x else (x.1, { x.2 with copies := x.2.copies.map fails }) }

/-- The trap of an await whose snapshot never came (R380). -/
def State.snapshotLost (s : State) (w : Who) : State :=
  let c := s.core w.core
  let x := c.slot w.slot
  match x.wait.token with
  | some (_, _, va) =>
    if x.gen = w.gen ∧ c.running = some w.slot then
      { s.clearWait w.core w.slot with focus := w.core }.takeTrap ⟨8, va, 0, none⟩ c.co.pc
    else if x.gen = w.gen ∧ (x.st = .suspended ∨ x.st = .spilled ∨ x.st = .evicted) then
      (s.setCore w.core (c.setSlot w.slot { x with wait := .failed va })).signalSlot w.core w.slot
    else s
  | none => s

/-- The coroutine of a tag awaits a token word of another package. -/
def State.awaitsAway (s : State) (w : Who) : Bool := (s.awaited w).any fun pa => paPkg pa != pkgOf w.core

/-- A read or an AtomicOp of the host whose package does not answer completes with data of an error (R334, R339). -/
def State.hostLost (s : State) (p : Nat) (t : BitVec 6) (off : BitVec 36) (n : Nat) : Option State :=
  match s.aperture p t off n with
  | some pa =>
    if paPkg pa = p then none else some (s.replyHost p (.data ((List.range n).map fun i => Config.hostErrorByte (pa + i))))
  | none => none

/-- What the failure of a request leaves of it; none where it is no request over the fabric (R219, R275, R283, R284, R339; DEDUCED, log 27). -/
def State.requestLost (s : State) (e : Event) : Option State :=
  let away := fun (w : Who) (pa : Pa) => pkgOf w.core != paPkg pa
  match e with
  | .remoteLoadAtHome w r segs _ ea _ => if segs.any (fun g => away w g.1) then some (s.complete w r 0 (some ea)) else none
  | .remoteWriteAtHome w pa _ _ q => if away w pa then some (s.writeLost w pa q) else none
  | .amoAtHome w r pa _ dbl _ _ ea q => if away w pa then some ((s.post (amoFailed w r dbl ea)).writeLost w pa q) else none
  | .vamoUpdateAtHome w id pa _ _ _ _ _ _ _ q => if away w pa then some ((s.updateDone w id 0 true).writeLost w pa q) else none
  | .tokenSnapshot w => if s.awaitsAway w then some (s.snapshotLost w) else none
  | .tokenRegistration w => if s.awaitsAway w then some (s.snapshotLost w) else none
  | .tokenArmAtHome x pa _ => if senderPkg x != paPkg pa then some s else none
  | .tokenSignalAtHome x pa _ => if senderPkg x != paPkg pa then some s else none
  | .tokenRaiseAtHome x pa _ => if senderPkg x != paPkg pa then some s else none
  | .hostBar2Write p t off n _ => if (s.aperture p t off n).any fun pa => paPkg pa != p then some s else none
  | .hostBar2Read p t a n => if a.bar = 2 then s.hostLost p t a.off n else none
  | .hostAtomicOp p t off _ n _ _ => s.hostLost p t off n
  | .qdoor p t q _ => if paPkg (s.tenant p t.toNat).queues[q.toNat].qtok.toNat != p then some s else none
  | .hsigv p t _ => if paPkg (s.tenant p t.toNat).hsiga.toNat != p then some s else none
  | .fenceProbeEcho w r p b => if pkgOf w.core != p then some (s.echoed w r p b true) else none
  | .futureLoadAtHome w r pa q => if away w pa then some (s.complete w r 0 (some q.ea)) else none
  | .futureStoreAtHome w pa _ => if away w pa then some (s.storeLost w (paPkg pa)) else none
  | .xbswapRendezvous cl id =>
    match (s.copy? cl id).bind fun c => c.swap.map fun w => (c, w) with
    | some (c, w) =>
      if pkgOf (cidCore w.partner) = cl / 128 then none
      else some ((s.setCopy cl c.unmatched).post (.copyCompletion cl id))
    | none => none
  | .collectivePacket dst p => if pkgOf (cidCore dst) != pkgOf p.sender.core then some (s.memberGone dst p) else none
  | .collectiveRetry dst p => if pkgOf (cidCore dst) != pkgOf p.sender.core then some (s.memberGone dst p) else none
  | .mailboxArrival dst _ w r _ =>
    if pkgOf (cidCore dst) != pkgOf w.core then some (s.complete w r (completionWord 2 1) none) else none
  | .spawnRequest q =>
    if q.kind = 1 && pkgOf (cidCore q.cid) != pkgOf q.parent.core then some (s.complete q.parent q.reg (-1) none) else none
  | _ => none

/-- FABRIC_FAILURE_TIMEOUT: request n of those under way has not been answered in time and has failed (R339). -/
def execFabricFailureTimeout (n : Nat) (s : State) : Out :=
  match s.flight[n]? with
  | none => .next s
  | some e => .next (({ s with flight := s.flight.eraseIdx n }.requestLost e).getD s)

end Sys2Proof.Machine
end

