-- ==== Sys2Proof/Machine/Fpu.lean ====
section
/-!
DEFINITION. Scalar floating point: FPU and FFMA (R90 to R93).
-/

namespace Sys2Proof.Machine

/-- The format that X names: f32, or f64 (R91). -/
def fpuFmt (dbl : Bool) : Fmt := fmtOf (if dbl then 13 else 12)

/-- The value of a source; f32 takes bits [31:0] (R90). -/
def fpuVal (dbl : Bool) (x : Word) : FV := (fpuFmt dbl).value (if dbl then x.toNat else x.toNat % 2 ^ 32)

/-- A floating-point operation inside its chunk: s[d] and the flags (R47, R49, R91). -/
def State.fcompute (s : State) (d : Reg) (rs : List Reg) (f : Co → Nat × BitVec 5) : Out :=
  s.issue rs [d] fun s =>
    let r := f s.co
    (s.setCo ((s.co.wr d (BitVec.ofNat 64 r.1)).orFlags r.2)).finish

/-- round_to(x, t, rm, 0) of an exact result with its flags (R91). -/
def fpuRound (c : Co) (dbl : Bool) (rm : Nat) (r : Ex × BitVec 5) : Nat × BitVec 5 :=
  (fpuFmt dbl).round (c.rnd rm 0) r.1 r.2

/-- A form with two sources and a result in the format. -/
def State.fpu2 (s : State) (dbl : Bool) (d a b : Reg) (f : Nat → FV → FV → Ex × BitVec 5) : Out :=
  s.fcompute d [a, b] fun c =>
    fpuRound c dbl 0 (f (c.rnd 0 0).rm (fpuVal dbl (c.rd a)) (fpuVal dbl (c.rd b)))

/-- A comparison: 1 or 0, with NV where its NaNs ask for it (R51, R91). -/
def State.fpuCmp (s : State) (dbl : Bool) (d a b : Reg) (quiet : Bool) (f : FV → FV → Bool) : Out :=
  s.fcompute d [a, b] fun c =>
    let x := fpuVal dbl (c.rd a)
    let y := fpuVal dbl (c.rd b)
    if x.isNan || y.isNan then (0, nvIf (!quiet || x.isSig || y.isSig)) else ((f x y).toNat, 0)

/-- An exact value as a result that may be rounded. -/
def exVal (r : FV × BitVec 5) : Ex × BitVec 5 := (.val r.1, r.2)

/-- The class mask of a code (R92). -/
def fclassMask (f : Fmt) (x : Nat) : Nat :=
  match f.value x with
  | .nan true => 2 ^ 8
  | .nan false => 2 ^ 9
  | .inf true => 2 ^ 0
  | .inf false => 2 ^ 7
  | .fin neg m _ =>
    if m = 0 then (if neg then 2 ^ 3 else 2 ^ 4)
    else if m < 2 ^ f.fb then (if neg then 2 ^ 2 else 2 ^ 5)
    else if neg then 2 ^ 1 else 2 ^ 6

/-- The fused forms: the product, negated or not, and the addend, negated or not, rounded once (R93). -/
def State.fused (s : State) (d a b c : Reg) (y : BitVec 7) (negProduct negAddend : Bool) : Out :=
  let dbl := y.extractLsb' 3 4 == 13#4
  s.fcompute d [a, b, c] fun r =>
    let rm := (y.extractLsb' 0 3).toNat
    let z := fpuVal dbl (r.rd c)
    let x := fpuVal dbl (r.rd a)
    fpuRound r dbl rm (exVal ((if negProduct then x.neg else x).fma (r.rnd rm 0).rm (fpuVal dbl (r.rd b))
      (if negAddend then z.neg else z)))

/-- FADD (R91). -/
def execFadd (dbl : Bool) (d a b : Reg) (s : State) : Out := s.fpu2 dbl d a b fun rm x y => exVal (x.add rm y)

/-- FSUB (R91). -/
def execFsub (dbl : Bool) (d a b : Reg) (s : State) : Out := s.fpu2 dbl d a b fun rm x y => exVal (x.add rm y.neg)

/-- FMUL (R91). -/
def execFmul (dbl : Bool) (d a b : Reg) (s : State) : Out := s.fpu2 dbl d a b fun _ x y => exVal (x.mul y)

/-- FDIV (R91). -/
def execFdiv (dbl : Bool) (d a b : Reg) (s : State) : Out := s.fpu2 dbl d a b fun _ x y => x.div y

/-- FMIN (R91, R51). -/
def execFmin (dbl : Bool) (d a b : Reg) (s : State) : Out := s.fpu2 dbl d a b fun _ x y => exVal (FV.pick false x y)

/-- FMAX (R91, R51). -/
def execFmax (dbl : Bool) (d a b : Reg) (s : State) : Out := s.fpu2 dbl d a b fun _ x y => exVal (FV.pick true x y)

/-- FSQRT (R91). -/
def execFsqrt (dbl : Bool) (d a : Reg) (s : State) : Out :=
  s.fcompute d [a] fun c => fpuRound c dbl 0 (fpuVal dbl (c.rd a)).sqrt

/-- FEQ (R91). -/
def execFeq (dbl : Bool) (d a b : Reg) (s : State) : Out := s.fpuCmp dbl d a b true FV.eq

/-- FLT (R91). -/
def execFlt (dbl : Bool) (d a b : Reg) (s : State) : Out := s.fpuCmp dbl d a b false FV.lt

/-- FLE (R91). -/
def execFle (dbl : Bool) (d a b : Reg) (s : State) : Out := s.fpuCmp dbl d a b false fun x y => !y.lt x

/-- FCVTIF: the source as i64 (R91). -/
def execFcvtif (dbl : Bool) (d a : Reg) (s : State) : Out :=
  s.fcompute d [a] fun c => fpuRound c dbl 0 (.val (FV.ofInt (c.rd a).toInt), 0)

/-- FCVTFI: to i64, saturating (R50, R91). -/
def execFcvtfi (dbl : Bool) (d a : Reg) (s : State) : Out :=
  s.fcompute d [a] fun c => (fpuVal dbl (c.rd a)).toInt (c.rnd 0 0) true 64

/-- FCLASS (R92). -/
def execFclass (dbl : Bool) (d a : Reg) (s : State) : Out :=
  s.fcompute d [a] fun c => (fclassMask (fpuFmt dbl) (if dbl then (c.rd a).toNat else (c.rd a).toNat % 2 ^ 32), 0)

/-- FFMA (R93). -/
def execFfma (d a b c : Reg) (y : BitVec 7) (s : State) : Out := s.fused d a b c y false false

/-- FFMS (R93). -/
def execFfms (d a b c : Reg) (y : BitVec 7) (s : State) : Out := s.fused d a b c y false true

/-- FNMA (R93). -/
def execFnma (d a b c : Reg) (y : BitVec 7) (s : State) : Out := s.fused d a b c y true false

end Sys2Proof.Machine
end

