-- ==== Sys2Proof/Machine/Tenancy.lean ====
section
/-!
DEFINITION. Tenants: their configuration (R311, R331, R354), the reset of a tenant with that of its cores and clusters (R311,
R378), and the switch of a cluster from one tenant to another (R328).
-/

namespace Sys2Proof.Machine

/-! ### Runs of memory -/

/-- A memory with a run of bytes zero. -/
def memClear (m : List Host.Cell) (a n : Nat) : List Host.Cell := m.filter fun c => !(a ≤ c.1 && c.1 < a + n)

/-- The lines of a run. -/
def runLines (a n : Nat) : List Nat := if n = 0 then [] else (List.range ((a + n - 1) / 128 - a / 128 + 1)).map (a / 128 + ·)

/-- A run of a package's memory replaced by Grexa: zero but for the bytes given (R262, R328, R331). -/
def State.fillRun (s : State) (a n : Nat) (ws : List (Pa × Byte)) : State :=
  let s1 := ({ s with mem := memPuts (memClear s.mem a n) ws }).heal a n
  (s1.squashAll (paPkg a) none (runLines a n)).stalePlanes (paPkg a) [(a, n)]

/-! ### Cores and clusters after their resets (R311, R378) -/

/-- The running coroutine of a core discarded: its slot holds it no more, and its chunk is gone. -/
def State.dropRunning (s : State) (g : CoreId) : State :=
  let c := s.core g
  s.setCore g { c with running := none, chunk := Chunk.fresh Co.reset, waiting := none, vq := [], co := Co.reset, ext := Ext.reset, prefetch := [] }

/-- Every slot of a core free, with no context saved (R195, R311). -/
def State.freeSlots (s : State) (g : CoreId) : State :=
  ((s.core g).slots.filter fun x => x.2.st != .free).foldl (fun s x => s.freeSlot g x.1) (s.dropRunning g)

/-- The weir's and the walker's records of a core taken out. -/
def Pkg.without (y : Pkg) (g : CoreId) : Pkg :=
  { y with
    sole := if y.sole = some g then none else y.sole
    soleReqs := y.soleReqs.filter (· != g)
    walks := y.walks.map fun w => { w with askers := w.askers.filter fun a => a != .core g && a != .ahead g }
    walkq := y.walkq.filter fun x => x.1 != .core g && x.1 != .ahead g
    missed := y.missed.filter fun x => x.1 != .core g && x.1 != .ahead g
    deferred := y.deferred.filter (·.who.core != g) }

/-- A core reset: slots, cells, mailbox, TLB, cycle, counters and weight descriptor; its queued jobs outlive it (R181, R378). -/
def State.resetCore (s : State) (g : CoreId) : State :=
  let s1 := s.freeSlots g
  let c := s1.core g
  let c' := { Core.reset with
    slots := c.slots, turns := c.turns, blocks := c.blocks, wdog := c.wdog, ctxbase := c.ctxbase, jobs := c.jobs, cycle0 := s.elapsed }
  let s2 := (s1.setCore g c').fillRun (cellPa g 0) 2048 []
  s2.setPkg (pkgOf g) ((s2.pkg (pkgOf g)).without g)

/-- The locks that a cluster's copies and jobs hold released. -/
def State.releaseCluster (s : State) (cl : Nat) : State :=
  let k := s.cluster cl
  let jobs := (List.range 8).flatMap fun j => (s.core (cl * 8 + j)).jobs
  let js := jobs ++ k.unit.granted.toList ++ k.unit.running.toList
  ((k.copies.map (·.id)) ++ js.flatMap fun j => [j.id, j.id + 1]).foldl (fun s n => s.releaseLocks (cl / 128) n) s

/-- A cluster reset: its cores', and accumulators, copy engine, job queues and cluster registers (R378). -/
def State.resetCluster (s : State) (cl : Nat) : State :=
  let s1 := s.releaseCluster cl
  let k := s1.cluster cl
  let s2 := s1.setCluster cl { Cluster.reset with tenant := k.tenant, saved := k.saved }
  (List.range 8).foldl (fun s j =>
    let s1 := s.resetCore (cl * 8 + j)
    s1.setCore (cl * 8 + j) { s1.core (cl * 8 + j) with jobs := [] }) s2

/-- The clusters of a tenant's set. -/
def State.clustersOf (s : State) (p t : Nat) : List Nat := ((List.range 128).filter fun k => s.inSet p t k).map (p * 128 + ·)

/-- TENANT_RESET: the tenant's clusters reset, EN := 0 in its queues, and nothing selected (R311, R378; DEDUCED, log 37). -/
def execTenantReset (pkg : Nat) (t : BitVec 6) (s : State) : Out :=
  let s1 := (s.clustersOf pkg t.toNat).foldl State.resetCluster s
  let x := s1.tenant pkg t.toNat
  .next (s1.setTenant pkg t.toNat { x with
    queues := x.queues.map fun q => { q with ctl := q.ctl &&& 0x7FFFFFFFFFFFFFFF, sel := 0, head := none, eligible := none, after := [] }
    bind := none })

/-! ### TENANT_CONFIGURATION (R311, R331, R354, R381) -/

/-- A cluster has joined a tenant's set: its cores' block caches are filled (R354). -/
def State.join (s : State) (cl : Nat) (t : BitVec 6) : State :=
  (List.range 8).foldl (fun s j => s.fillBlocks (cl * 8 + j) t 16) (s.setCluster cl { s.cluster cl with tenant := t })

/-- A cluster leaves a tenant's set: its cores' blocks are taken back (R354). -/
def State.part (s : State) (cl : Nat) (t : BitVec 6) : State :=
  (List.range 8).foldl (fun s j => s.takeBackBlocks (cl * 8 + j) (s.blockBytes (cl / 128) t)) s

/-- A core of the cluster holds a coroutine. -/
def State.occupied (s : State) (cl : Nat) : Bool :=
  (List.range 8).any fun j => (s.core (cl * 8 + j)).slots.any fun x => x.2.st != .free

/-- Every core of the cluster is fused off (R371). -/
def State.clusterFused (s : State) (cl : Nat) : Bool := (List.range 8).all fun j => s.fusedOff (cl * 8 + j)

/-- The job queues of a cluster are empty, the unit idle, and the copy engine holds nothing (R328). -/
def State.quietCluster (s : State) (cl : Nat) : Bool :=
  let k := s.cluster cl
  k.unit.granted.isNone && k.unit.running.isNone && k.copies.isEmpty &&
    (List.range 8).all fun j => (s.core (cl * 8 + j)).jobs.isEmpty

/-- The ranges of a package's local map with something at every address, fused-off cores apart (R298). -/
def Pkg.populated (y : Pkg) : List (Nat × Nat) :=
  [(0, 768000000000), (0x100000000000, min y.cxlSize[0] (2 ^ 41)), (0x120000000000, min y.cxlSize[1] (2 ^ 41)), (0x200000000000, 2 ^ 32),
   (0x210000000000, 2 ^ 28), (0x220000000000, 2 ^ 21), (0x300000000000, 2 ^ 27), (0x300008000000, 2 ^ 24)]

/-- The ranges that lie in no tenant's window: the scratchpads and cells of fused-off cores, Grexa's registers and the snapshot controls
(R298, R306, R373). -/
def Pkg.reserved (y : Pkg) : List (Nat × Nat) :=
  (y.fused.flatMap fun c => [(0x210000000000 + c * 2 ^ 18, 2 ^ 18), (0x220000000000 + c * 2 ^ 11, 2 ^ 11)]) ++
    [(0x300008000000, 0x100000), (0x300008700000, 0x20)]

/-- A window holds no hole and nothing reserved, and lies in one package (R298). -/
def State.windowOk (s : State) (w : Nat × Nat) : Bool :=
  let y := s.pkg (paPkg w.1)
  let l := paLocal w.1
  l + w.2 ≤ 2 ^ 46 && (y.populated.foldl (fun left r => cutRuns left r.1 r.2) [(l, w.2)]) == [] &&
    y.reserved.all fun r => !overlaps l w.2 r.1 r.2

/-- What Grexa keeps of every configuration: sets never overlap, and a cluster that leaves is idle (R311); a fused cluster is in none (R371);
a joining cluster is in no switch and holds nobody else's coroutines (R328); no window holds a hole (R298); an ASID is one tenant's, and the
table lies in the package's HBM (R303); the save areas in use stay inside a window, retired pages apart (R370, R381); and no tenant runs in
recovery (R374). -/
def State.configOk (s : State) (p : Nat) (t : BitVec 6) (c : TenantCfg) : Bool :=
  let clusters := (List.range 128).filter fun k => c.clset.getLsbD k
  let leaving := (List.range 128).filter fun k => s.inSet p t.toNat k && !c.clset.getLsbD k
  let windows := s.withoutRetired p c.windows
  let covers := fun (a n : Nat) => windows.any fun w => w.1 ≤ a && a + n ≤ w.1 + w.2
  (s.pkg p).live && c.windows.all s.windowOk && (c.table.all fun a => paLocal a.toNat + 16384 * 16 ≤ 768000000000) &&
  (c.asids.all fun a => (s.pkg p).tenants.all fun u => u.1 == t.toNat || !(u.2.cfg.asids.any (·.1 == a.1))) &&
  (clusters.all fun k =>
    !s.clusterFused (p * 128 + k) && !(s.cluster (p * 128 + k)).leaving && (List.range 64).all (fun u => u == t.toNat || !s.inSet p u k) &&
    ((s.cluster (p * 128 + k)).tenant == t || !s.occupied (p * 128 + k))) &&
  (leaving.all fun k => !s.occupied (p * 128 + k) && s.quietCluster (p * 128 + k)) &&
  (List.range 1024).all fun i =>
    let k := s.core (p * 1024 + i)
    (s.cluster (p * 128 + i / 8)).tenant != t || !(k.slots.any fun x => x.2.st != .free) || covers k.ctxbase.toNat (256 * 0x51000)

/-- An entry of the ASID table written (R303). -/
def State.asidWrite (s : State) (p : Nat) (asid : BitVec 14) (root attr : Word) : State :=
  let a := s.asidEntry p asid
  (s.writeHome a (leBytes 8 root.toNat)).writeHome (a + 8) (leBytes 8 attr.toNat)

/-- Runs without the near and far space that park entries hold: their tables' blocks and their contexts (R359). -/
def State.withoutUsed (s : State) (p : Nat) (l : List (Nat × Nat)) : List (Nat × Nat) :=
  (s.pkg p).park.foldl (fun l x =>
    let e := x.2
    let l1 := if e.ctier < 2 then cutRuns l e.ctx e.ctxBytes else l
    (List.range e.nused).foldl (fun l k =>
      let w := s.tableWord e.btab k
      if entryTier w < 2 then cutRuns l (entryPa w) (2 ^ e.blog) else l) l1) l

/-- The ranges of the granary that a tenant was the last to have in its windows (R331). -/
def Pkg.granaryOf (y : Pkg) (t : BitVec 6) : List (Nat × Nat) := (y.granary.filter (·.2.2 == t.toNat)).map fun x => (x.1, x.2.1)

/-- The granary ranges that a configuration gives a tenant and that it was not the last to have, which Grexa zeroes first with those that it
names (R331). -/
def Pkg.granaryGiven (y : Pkg) (p : Nat) (t : BitVec 6) (c : TenantCfg) : List (Nat × Nat) :=
  granaryRuns p (c.zero ++ (y.granaryOf t).foldl (fun l w => cutRuns l w.1 w.2) c.windows)

/-- The granary ranges of a configuration are its tenant's, and nobody else's any more (R331). -/
def Pkg.granaryTaken (y : Pkg) (p : Nat) (t : BitVec 6) (c : TenantCfg) : Pkg :=
  let runs := granaryRuns p c.windows
  let rest := y.granary.flatMap fun x => (runs.foldl (fun l w => cutRuns l w.1 w.2) [(x.1, x.2.1)]).map fun r => (r.1, r.2, x.2.2)
  { y with granary := rest ++ runs.map fun r => (r.1, r.2, t.toNat) }

/-- The ASID table as a configuration leaves it: where it lies, the entries of ASIDs that the tenant no longer has, and those of its ASIDs
(R303). -/
def State.asidsSet (s : State) (p : Nat) (t : BitVec 6) (old cfg : TenantCfg) : State :=
  let s1 := match cfg.table with
    | some a => s.setPkg p { s.pkg p with asidbase := a }
    | none => s
  let gone := old.asids.filter fun x => !(cfg.asids.any (·.1 == x.1))
  let s2 := gone.foldl (fun s x => s.asidWrite p x.1 0 0) s1
  cfg.asids.foldl (fun s x =>
    s.asidWrite p x.1 (x.2 &&& 0x03FFFFFFFFFF8000) (BitVec.ofNat 64 (2 ^ 63 + t.toNat * 2 ^ 48))) s2

/-- Space put on Grexa's lists, retired pages, pages in use and what lies beyond the flash apart (R2, R349, R354, R359, R370). -/
def State.spaceAdded (s : State) (p : Nat) (cfg : TenantCfg) : State :=
  let y := s.pkg p
  s.setPkg p { y with
    nearFree := y.nearFree ++ s.withoutUsed p (s.withoutRetired p cfg.near)
    farFree := y.farFree ++ s.withoutUsed p (s.withoutRetired p cfg.far)
    deepFree := y.deepFree ++ cfg.deep.filterMap fun w => if w.1 < flashBytes then some (w.1, min w.2 (flashBytes - w.1)) else none }

/-- The source packages and tenants that act as the tenant here (R340). -/
def State.sourcesSet (s : State) (p : Nat) (t : BitVec 6) (cfg : TenantCfg) : State :=
  let y := s.pkg p
  if y.origin.isNone && cfg.sources == [] then s
  else
    let rest := (y.origin.getD []).filter fun e => e.2 != t && !cfg.sources.contains e.1
    s.setPkg p { y with origin := some (rest ++ cfg.sources.map fun e => (e, t)) }

/-- TENANT_CONFIGURATION: ranges of the granary are zeroed before they are given, the ASIDs' entries are written, clusters
leave and join, and space goes to Grexa's lists (R303, R311, R331, R340, R349, R354). -/
def execTenantConfiguration (pkg : Nat) (t : BitVec 6) (cfg : TenantCfg) (s : State) : Out :=
  if !s.configOk pkg t cfg then .next s
  else
    let old := (s.tenant pkg t.toNat).cfg
    let s0 := ((s.pkg pkg).granaryGiven pkg t cfg).foldl (fun s w => s.fillRun w.1 w.2 []) s
    let s1 := s0.setPkg pkg ((s0.pkg pkg).granaryTaken pkg t cfg)
    let s2 := s1.asidsSet pkg t old cfg
    let leave := (List.range 128).filter fun k => old.clset.getLsbD k && !cfg.clset.getLsbD k
    let enter := (List.range 128).filter fun k => !old.clset.getLsbD k && cfg.clset.getLsbD k
    let s3 := leave.foldl (fun s k => s.part (pkg * 128 + k) t) s2
    let s4 := (s3.spaceAdded pkg cfg).sourcesSet pkg t cfg
    let s5 := s4.setTenant pkg t.toNat { s4.tenant pkg t.toNat with
      cfg := { cfg with windows := s.withoutRetired pkg cfg.windows } }
    .next ((enter.foldl (fun s k => s.join (pkg * 128 + k) t) s5).posts [.instanceBind pkg t, .parkWaitSlotPlace pkg t])

/-! ### The tenant switch (R328) -/

/-- A cluster put into a tenant's set, or taken out of it. -/
def State.inSetWrite (s : State) (cl : Nat) (t : BitVec 6) (on : Bool) : State :=
  let p := cl / 128
  let x := s.tenant p t.toNat
  let b := BitVec.twoPow 128 (cl % 128)
  s.setTenant p t.toNat { x with cfg := { x.cfg with clset := if on then x.cfg.clset ||| b else x.cfg.clset &&& ~~~b } }

/-- The switch begins: the cluster leaves its tenant's set (R328, R354). -/
def State.beginSwitch (s : State) (cl : Nat) : State :=
  let k := s.cluster cl
  if k.leaving then s
  else
    let s1 := if s.inSet (cl / 128) k.tenant.toNat (cl % 128) then (s.part cl k.tenant).inSetWrite cl k.tenant false else s
    s1.setCluster cl { s1.cluster cl with leaving := true, since := none, evicted := [] }

/-- A slot that holds a coroutine evicted at its instruction boundary, and whether it has been; a core whose running one has not reached it
issues nothing beyond it (R203). -/
def State.evictAny (s : State) (g : CoreId) (k : Nat) : State × Bool :=
  let c := s.core g
  let wait := (s.setCore g { c with evicting := true }, false)
  if c.running = some k then
    if !c.atBoundary || c.ext.fence.isSome then wait
    else match s.commit g with
      | none => wait
      | some t => (((t.setCore g { t.core g with evicting := false }).stop g true 0 .suspended .nothing c.co.pc).evictSlot g k true, true)
  else match (c.slot k).st with
    | .free | .evicted | .halted => (s, false)
    | .signalled | .refilling => (s.evictSlot g k true, true)
    | _ => (s.evictSlot g k false, true)

/-- Step 2: the slots that are not free evicted, as far as they can be; the switch remembers which, and since when it waits (R328). -/
def State.evictCluster (s : State) (cl : Nat) : State :=
  let k := s.cluster cl
  let s := s.setCluster cl { k with since := k.since <|> some s.elapsed }
  let l := (List.range 8).flatMap fun j =>
    ((s.core (cl * 8 + j)).slots.filter fun x => x.2.st != .free && x.2.st != .evicted && x.2.st != .halted).map fun x => (cl * 8 + j, x.1)
  l.foldl (fun s x =>
    let r := s.evictAny x.1 x.2
    if r.2 then r.1.setCluster cl { r.1.cluster cl with evicted := (r.1.cluster cl).evicted ++ [x] } else r.1) s

/-- The deferred LDFs of a cluster's slots answered with the retry pattern (R234, R328). -/
def State.answerDeferred (s : State) (cl : Nat) : State :=
  let mine := fun (x : Deferred) => clusterOf x.who.core == cl
  s.pkgs.foldl (fun s y =>
    let l := y.2.deferred.filter mine
    if l = [] then s
    else (s.setPkg y.1 { s.pkg y.1 with deferred := (s.pkg y.1).deferred.filter fun x => !mine x }).posts
      (l.map fun x => .pendingRegisterCompletion x.who x.reg retryPattern none)) s

/-- Step 2 is over: all slots are free, evicted or halted, no scalar register of them is pending, every collective of theirs
has completed (R328). -/
def State.savedCluster (s : State) (cl : Nat) : Bool :=
  (List.range 8).all fun j =>
    let c := s.core (cl * 8 + j)
    c.running.isNone && (c.colls.all (·.told)) &&
      c.slots.all fun x => x.2.st == .free || ((x.2.st == .evicted || x.2.st == .halted) && x.2.co.pend &&& 0xFFFFFFFE == 0)

/-- The results of completed collectives merged into the saved contexts (R276, R328). -/
def State.mergeSaved (s : State) (g : CoreId) : State :=
  (s.core g).colls.foldl (fun s c =>
    let k := s.core g
    let x := k.slot c.who.slot
    let a := k.saveArea c.who.slot
    if (x.st != .evicted && x.st != .halted) || x.gen != c.who.gen || !c.done then s
    else
      let co := c.mergeInto (readContext s.mem a x.co)
      let s1 := s.setCore g { k.setSlot c.who.slot { x with ext := x.ext.releaseColl c } with colls := k.colls.filter (·.id != c.id) }
      s1.saveMem g (writeContext s1.mem a co x.full x.live) (co.contextRuns a x.full x.live)) s

/-- Bytes of SWSAVE's area: tiles, cells, mailboxes, counts (R328). -/
def swsaveBytes : Nat := 0x400000 + 0x4000 + 0x8000 + 64

/-- The save area of a switch lies in a window of the tenant, and not in the granary, where only a copy writes (R311, R327, R329; DEDUCED, log
65). -/
def State.swsaveOk (s : State) (cl : Nat) (t : BitVec 6) : Bool :=
  let a := (s.cluster cl).swsave
  a != 0 && s.inWindow (cl / 128) t.toNat a.toNat swsaveBytes && openRun a.toNat swsaveBytes

/-- The bytes that step 3 writes (R328). The count words, of which R328 gives no place, follow the eight mailboxes (DESIGN CHOICE, log 69). -/
def State.switchImage (s : State) (cl a : Nat) : List (Pa × Byte) :=
  let tiles := (s.cluster cl).acc.flatMap fun x => ((leBytes 10 x.2.toNat).zipIdx).map fun y => (a + 16 * x.1 + y.2, y.1)
  let cells := ((memBytes s.mem (cellPa (cl * 8) 0) 0x4000).zipIdx).map fun y => (a + 0x400000 + y.2, y.1)
  let boxes := (List.range 8).flatMap fun j =>
    ((s.core (cl * 8 + j)).mailbox.zipIdx).flatMap fun m =>
      ((leBytes 64 m.1.data.toNat).zipIdx).map fun y => (a + 0x404000 + 4096 * j + 64 * m.2 + y.2, y.1)
  let counts := (List.range 8).flatMap fun j =>
    ((leBytes 8 (s.core (cl * 8 + j)).mailbox.length).zipIdx).map fun y => (a + 0x40C000 + 8 * j + y.2, y.1)
  tiles ++ cells ++ boxes ++ counts

/-- Step 3: the tenant's state of the cluster written to its SWSAVE; what the words do not hold is kept beside (R328). -/
def State.saveCluster (s : State) (cl : Nat) : State :=
  let k := s.cluster cl
  if !s.swsaveOk cl k.tenant then s
  else
    let a := k.swsave.toNat
    let keep := (List.range 8).map fun j =>
      let c := s.core (cl * 8 + j)
      (c.slots.filter fun x => x.2.st == .evicted || x.2.st == .halted, c.mailbox)
    let s1 := s.fillRun a swsaveBytes (s.switchImage cl a)
    s1.setCluster cl { s1.cluster cl with saved := Tab.set k.saved k.tenant.toNat keep }

/-- Step 4: accumulators, cells, mailboxes, weight descriptors, handlers and the tenant's translations gone, every slot free (R328). -/
def State.clearCluster (s : State) (cl : Nat) : State :=
  let k := s.cluster cl
  let asids := (s.tenant (cl / 128) k.tenant.toNat).cfg.asids.map (·.1)
  let other := fun (t : Tlb) => !asids.contains t.asid
  let s1 := s.setCluster cl { k with acc := [], badRows := [], upsets := [], tlb := k.tlb.filter other }
  (List.range 8).foldl (fun s j =>
    let g := cl * 8 + j
    let s1 := (s.freeSlots g).fillRun (cellPa g 0) 2048 []
    s1.setCore g { s1.core g with
      mailbox := [], weights := none, handler := none, tlb := (s1.core g).tlb.filter other
      line := none, ahead := [], packets := [] }) s1

/-- The entries of a saved tile region that are not +0. -/
def savedTiles (m : List Host.Cell) (a : Nat) : List (Nat × BitVec 80) :=
  let idx := ((m.filter fun c => a ≤ c.1 && c.1 < a + 0x400000).map fun c => (c.1 - a) / 16).eraseDups
  (idx.map fun i => (i, BitVec.ofNat 80 (leNat (memBytes m (a + 16 * i) 10)))).filter (·.2 != 0)

/-- A saved mailbox: its count and its messages, with what was kept of each (R328). -/
def savedMailbox (m : List Host.Cell) (a j : Nat) (kept : List Msg) : List Msg :=
  (List.range (min 64 (leNat (memBytes m (a + 0x40C000 + 8 * j) 8)))).map fun i =>
    let d := BitVec.ofNat 512 (leNat (memBytes m (a + 0x404000 + 4096 * j + 64 * i) 64))
    { kept.getD i ⟨0, 0, 0, 0⟩ with data := d }

/-- A slot whose record in the save area has the evicted or halted bit set is evicted or halted again (R328). -/
def State.recordedSlot (s : State) (g : CoreId) (kept : List (Nat × Slot)) (k : Nat) : State :=
  let c := s.core g
  let w := wordsAt s.mem (c.saveArea k + 0x140)
  let halted := field (w 7) 63 1 == 1
  if !halted && field (w 7) 62 1 == 0 then s
  else
    let old := Tab.get Slot.reset kept k
    s.setCore g (c.setSlot k { old with
      st := if halted then .halted else .evicted, gen := (c.slot k).gen, co := old.co.ofRecord w, inMem := true
      signalled := field (w 7) 61 1 == 1 })

/-- The state that the new tenant had saved of this cluster restored (R328 step 5). -/
def State.restoreCluster (s : State) (cl : Nat) (t : BitVec 6) : State :=
  let k := s.cluster cl
  if !Tab.has k.saved t.toNat || !s.swsaveOk cl t then s
  else
    let a := k.swsave.toNat
    let keep := Tab.get [] k.saved t.toNat
    let s1 := s.setCluster cl { k with acc := (savedTiles s.mem a).foldl (fun l x => Tab.set l x.1 x.2) [], saved := Tab.del k.saved t.toNat }
    (List.range 8).foldl (fun s j =>
      let g := cl * 8 + j
      let x := keep.getD j ([], [])
      let s2 := s.fillRun (cellPa g 0) 2048 (((memBytes s.mem (a + 0x400000 + 2048 * j) 2048).zipIdx).map fun y => (cellPa g 0 + y.2, y.1))
      let s3 := s2.setCore g { s2.core g with mailbox := savedMailbox s.mem a j x.2 }
      if s3.savesValid g then (List.range 256).foldl (fun s k => s.recordedSlot g x.1 k) s3 else s3) s1

/-- Steps 5 and 6: the new tenant's registers and saved state, and the cluster in its set (R328). -/
def State.loadCluster (s : State) (cl : Nat) (t : BitVec 6) (ld : ClusterLoad) : State :=
  let s1 := (List.range 8).foldl (fun s j => s.ctxbaseWrite (cl * 8 + j) (ld.ctxbase.getD j 0)) s
  let s2 := s1.setCluster cl { s1.cluster cl with
    l2cfg := ld.l2cfg &&& 0x17, swsave := ld.swsave &&& 0x03FFFFFFFFFFF000, marbw := ld.marbw, tenant := t
    leaving := false, since := none, evicted := [] }
  ((s2.restoreCluster cl t).inSetWrite cl t true).join cl t

/-- The event is a try of the switch of a cluster. -/
def isSwitch (cl : Nat) (e : Event) : Bool :=
  match e with
  | .tenantSwitch c _ _ => c == cl
  | _ => false

/-- Cycles after which the fabric takes a request to have failed (R339). -/
def detectionTime : Nat := 70000

/-- The second step of a cluster's switch has waited for longer than the fabric's failure detection time (R328). -/
def State.switchLate (s : State) (k : Cluster) : Bool :=
  k.leaving && match k.since with
    | some t => detectionTime < s.elapsed - t
    | none => false

/-- TENANT_SWITCH_ABANDON: the waits took too long: the slots that the switch evicted are restored, the cluster is in its tenant's set again,
and Grexa reports the failure (R328). -/
def execTenantSwitchAbandon (cl : Nat) (s : State) : Out :=
  let k := s.cluster cl
  if !s.switchLate k then .next s
  else
    let s1 := { s with flight := s.flight.filter fun e => !isSwitch cl e }
    let s2 := k.evicted.foldl (fun (s : State) x =>
      if ((s.core x.1).slot x.2).st = .evicted then s.restoreSlot x.1 x.2 else s) s1
    let s3 := s2.setCluster cl { s2.cluster cl with leaving := false, since := none, evicted := [] }
    let s4 := (List.range 8).foldl (fun s j => s.setCore (cl * 8 + j) { s.core (cl * 8 + j) with evicting := false }) s3
    let y := s4.pkg (cl / 128)
    let s5 := s4.setPkg (cl / 128) { y with log := y.log ++ [.switchAbandoned cl] }
    .next (((s5.inSetWrite cl k.tenant true).join cl k.tenant).post (.instanceBind (cl / 128) k.tenant))

/-- TENANT_SWITCH: one try of the switch; what its waits hold up is tried again, and waits that have taken too long end it (R328; DEDUCED,
log 29). A cluster that is fused off goes to no tenant (R371). -/
def execTenantSwitch (cl : Nat) (t : BitVec 6) (ld : ClusterLoad) (s : State) : Out :=
  let s1 := s.beginSwitch cl
  if s.clusterFused cl then .next s
  else if s1.switchLate (s1.cluster cl) then execTenantSwitchAbandon cl s1
  else if !s1.quietCluster cl then s1.again (.tenantSwitch cl t ld)
  else
    let s2 := (s1.evictCluster cl).answerDeferred cl
    if !s2.savedCluster cl then s2.again (.tenantSwitch cl t ld)
    else
      let s3 := (List.range 8).foldl (fun s j => s.mergeSaved (cl * 8 + j)) s2
      .next ((((s3.saveCluster cl).clearCluster cl).loadCluster cl t ld).post (.instanceBind (cl / 128) t))

end Sys2Proof.Machine
end

