-- ==== Sys2Proof/Machine/Repair.lean ====
section
/-!
DEFINITION. Scrubbing and retirement (R369, R370), snapshots (R372, R373), the reset domains with what a warm reset restores
(R359, R378), boot and attestation (R374 to R376), power and management (R377, R379).
-/

namespace Sys2Proof.Machine

/-! ### Scrubbing and page retirement (R369, R370) -/

/-- A page retired: kept on the list in flash, gone from the block caches and from free space, with a record of KIND 4 (R370). -/
def State.retirePage (s : State) (p : Nat) (pa : Pa) : State :=
  let base := pa / 65536 * 65536
  let y := s.pkg p
  if y.retired.contains base then s
  else
    let s1 := s.setPkg p { y with
      retired := y.retired ++ [base], nearFree := cutRuns y.nearFree base 65536, farFree := cutRuns y.farFree base 65536 }
    let keep := fun (g : CoreId) (a : Pa) =>
      let n := s.blockBytes p (s.cluster (clusterOf g)).tenant
      a + n ≤ base || base + 65536 ≤ a
    let cores := s1.cores.map fun (x : Nat × Core) =>
      if pkgOf x.1 = p then (x.1, { x.2 with blocks := x.2.blocks.filter (keep x.1) }) else x
    { s1 with cores := cores }.pageError 4 pa true

/-- Core cycles in 24 hours. -/
def dayCycles : Nat := 24 * 3600 * 700000000

/-- The pages that have had 16 corrected errors within 24 hours retire (R370). -/
def State.retireWorn (s : State) (p : Nat) : State :=
  let y := s.pkg p
  let recent := y.corrected.filter fun x => s.elapsed - x.2 < dayCycles
  let worn := ((recent.map (·.1)).eraseDups).filter fun b => 16 ≤ (recent.filter (·.1 == b)).length && !y.retired.contains b
  worn.foldl (fun s b => (s.pageError 6 b true).retirePage p b) (s.setPkg p { y with corrected := recent })

/-- The scrubber reads the codewords of this address (R369). -/
def State.scrubs (s : State) (pa : Pa) : Bool :=
  match s.region pa with
  | .hbm | .cxl _ | .granary _ => true
  | _ => false

/-- Data stand at the address in codewords (R365). -/
def State.protects (s : State) (pa : Pa) : Bool :=
  s.scrubs pa || match s.region pa with
    | .scratch _ => true
    | _ => false

/-- PATROL_SCRUB: one codeword read: a correctable error is counted and written back as it reads, an uncorrectable one is reported and its
page retired; and pages that have been corrected too often retire (R369, R370; DEDUCED, log 35). -/
def execPatrolScrub (pa : Pa) (s : State) : Out :=
  let p := paPkg pa
  let c := s.codeword pa
  if !s.scrubs pa || !(s.pkg p).on then .next s
  else if s.memoryFails pa || s.linkDown pa then .next (((s.pageError 3 pa true).retirePage p pa).retireWorn p)
  else
    let s1 := s.noteReads [pa]
    .next ((s1.setPkg p { s1.pkg p with weak := (s1.pkg p).weak.filter (· != c) }).retireWorn p)

/-! ### Soft errors (R255, R365 to R367) -/

/-- What a soft error strikes holds an error from then on, which its readers meet; one in a speculative line squashes the
chunk at once (R255, R366; DESIGN CHOICE, log 43). -/
def State.upset (s : State) : Upset → State
  | .codeword pa =>
    let y := s.pkg (paPkg pa)
    if s.protects pa && !y.failing.contains (s.codeword pa) then s.setPkg (paPkg pa) { y with failing := y.failing ++ [s.codeword pa] } else s
  | .correctable pa =>
    let y := s.pkg (paPkg pa)
    if s.protects pa && !y.weak.contains (s.codeword pa) then s.setPkg (paPkg pa) { y with weak := y.weak ++ [s.codeword pa] } else s
  | .cached pa l1 =>
    let y := s.pkg (paPkg pa)
    let x := (pa / 8 * 8, if l1 then 3 else 2)
    let held := match s.region pa with
      | .hbm | .cxl _ => true
      | _ => false
    if held && !y.cached.contains x then s.setPkg (paPkg pa) { y with cached := y.cached ++ [x] } else s
  | .register g file n =>
    let c := s.core g
    if c.running.isSome && file < 3 then s.setCore g { c with ext := { c.ext with badRegs := c.ext.badRegs ++ [(file, n)] } } else s
  | .accumulator cl row =>
    let k := s.cluster cl
    if row < 1024 && !k.badRows.contains row then s.setCluster cl { k with badRows := k.badRows ++ [row], upsets := k.upsets ++ [row] } else s
  | .context g n =>
    let c := s.core g
    let x := c.slot n
    match x.st with
    | .signalled | .suspended => if x.inMem then s else s.setCore g (c.setSlot n { x with cacheError := true })
    | _ => s
  | .packet g n =>
    let c := s.core g
    match c.packets[n]? with
    | some p => s.setCore g { c with packets := c.packets.set n (p.1, { p.2 with bad := true }) }
    | none => s
  | .corrected p unit => s.setPkg p ((s.pkg p).countError unit true)
  | .speculative g waiting =>
    let c := s.core g
    let k := if waiting then c.waiting.getD (Chunk.fresh c.co) else c.chunk
    if k.reads = [] ∧ k.wrote = [] then s else s.squash g waiting

/-! ### Snapshots (R372, R373) -/

/-- SNAPTRIG: any write triggers, with source 1 (R373). -/
def execSnaptrig (pkg : Nat) (s : State) : Out := .next (s.trigger pkg 1)

/-- Cycles from a trigger to its latch (R372). -/
def latchDelay : Nat := 24

/-- SNAPSHOT_LATCH: for the trigger that came first of those whose latch is still to come, every block of the package latches what it
tracks, at the end of the 24th cycle after it, which passes first; COUNT and SRC tell of the latch (R372, R373; DESIGN CHOICE, log 41). -/
def execSnapshotLatch (pkg : Nat) (s : State) : Out :=
  match (s.pkg pkg).snap.pending with
  | [] => .next s
  | (cycle, src) :: rest =>
    let s1 := s.pass (cycle + latchDelay - s.elapsed)
    let y := s1.pkg pkg
    .next (s1.setPkg pkg { y with snap := { y.snap with
      pending := rest, count := BitVec.ofNat 64 ((y.snap.count.toNat + 1) % 2 ^ 16), src := BitVec.ofNat 64 src
      copy := Config.snapshotImage pkg (cycle + latchDelay) } })

/-! ### Boot (R374) -/

/-- The boot ROM accepts an image. -/
def Pkg.accepts (y : Pkg) (i : Image) : Bool :=
  Config.ed25519Verify y.tabesh (Config.sha512 i.bytes) i.sig && y.fuse ≤ i.svn

/-- The first image slot that verifies runs, else the device is in recovery (R374; DEDUCED, log 39). -/
def Pkg.boot (y : Pkg) : Pkg :=
  match (y.images.toList.filterMap id).find? y.accepts with
  | some i => { y with image := some i, recovery := false, boots := y.boots + 1 }
  | none => { y with image := none, recovery := true, boots := y.boots + 1 }

/-! ### Reset domains (R378) -/

/-- CORE_RESET (R378). -/
def execCoreReset (g : CoreId) (s : State) : Out := .next (s.resetCore g)

/-- CLUSTER_RESET (R378). -/
def execClusterReset (cl : Nat) (s : State) : Out := .next (s.resetCluster cl)

/-- The base of a die's granary (R298). -/
def granaryPa (die : Nat) : Pa := die / 4 * 2 ^ 46 + 0x200000000000 + die % 4 * 2 ^ 30

/-- The L2 slices of a die hold nothing, and no errors (R66, R365, R378). -/
def State.clearSlices (s : State) (die : Nat) : State :=
  let y := s.pkg (die / 4)
  let here := fun (x : Pa × Nat) => x.2 == 2 && homeSlice x.1 / 64 == die % 4
  s.setPkg (die / 4) { y with cached := y.cached.filter fun x => !here x }

/-- DIE_RESET: the clusters of the die, its L2, and its granary (R378). -/
def execDieReset (die : Nat) (s : State) : Out :=
  let s1 := (List.range 32).foldl (fun s k => s.resetCluster (die * 32 + k)) s
  .next ((s1.clearSlices die).fillRun (granaryPa die) (2 ^ 30) [])

/-- A core as a module reset leaves it: the tags of its slots advance, so that nothing under way reaches a new occupant (R195). -/
def Core.cleared (c : Core) (now : Nat) : Core :=
  { Core.reset with
    slots := c.slots.map fun (x : Nat × Slot) => (x.1, { Slot.reset with gen := x.2.gen + 1 })
    cycle0 := now }

/-- What a package keeps over every module reset: flash, fuses, what is fitted to it (R359, R370, R374, R378). -/
def Pkg.kept (y : Pkg) : Pkg :=
  { Pkg.reset with
    mirror := y.mirror, flash := y.flash, deepFree := y.deepFree, retired := y.retired, cxlSize := y.cxlSize, ports := y.ports
    images := y.images, certificate := y.certificate, fuse := y.fuse, tabesh := y.tabesh, boots := y.boots, fused := y.fused
    celsius := y.celsius, watts := y.watts }

/-- Memory that a warm reset keeps: HBM, CXL and granary (R378). -/
def State.keptWarm (s : State) (p : Nat) (pa : Pa) : Bool :=
  paPkg pa != p || match s.region pa with
    | .hbm | .cxl _ | .granary _ => true
    | _ => false

/-- A package's cores, clusters, dies, memory and what it has under way after a module reset: a request that another package has sent to it
stays under way (R378; DEDUCED, log 37). -/
def State.clearModule (s : State) (p : Nat) (keep : Pa → Bool) (y : Pkg) : State :=
  let cores := s.cores.map fun (x : Nat × Core) => if pkgOf x.1 = p then (x.1, x.2.cleared s.elapsed) else x
  let s1 : State := { s with
    cores := cores
    clusters := s.clusters.filter fun x => x.1 / 128 != p
    mem := s.mem.filter fun c => keep c.1
    flight := s.flight.filter fun e => e.owner != some p }
  let s2 := (List.range 4).foldl (fun s d => s.setDie (p * 4 + d) ⟨Config.gphaseBase (p * 4 + d) y.boots⟩) s1
  s2.setPkg p { y with booted := s.elapsed }

/-- A mirrored entry whose context is deep stands in the table again, parked, or in demotion where it was, and its watch is
registered; a wake word that is not zero wakes it at once (R342, R350, R359). -/
def State.restoreEntry (s : State) (p e : Nat) (x : ParkEntry) : State :=
  let x1 := { x with st := if x.st = 2 then 2 else 1, woken := false, resumed := false, pos := 0, failed := [], short := false }
  let z := s.tenant p x.tenant.toNat
  let s1 := (s.setEntry p e x1).setTenant p x.tenant.toNat { z with pused := z.pused + 1 }
  let s2 := (s1.setPkg p { s1.pkg p with watches := (s1.pkg p).watches ++ [(x.wtok, e)] }).post (.blockMoveRegistration p e)
  let v := memWord s.mem x.wtok
  if v = 0 then s2 else s2.takeWatches p [(x.wtok, v)]

/-- A mirrored entry whose context was not deep is dropped: its blocks in flash are free, with a record of reason 1 (R359). -/
def State.discardEntry (s : State) (p e : Nat) (x : ParkEntry) : State :=
  let s1 := (List.range x.nused).foldl (fun s k =>
    let w := s.tableWord x.btab k
    if entryTier w = 2 then s.giveTier p 2 (entryPa w) (2 ^ x.blog) else s) s
  (s1.setPkg p { s1.pkg p with mirror := Tab.del (s1.pkg p).mirror e }).parkRecord p x 1 0

/-- The flash that moves in flight had taken is free again (R359). -/
def Pkg.abandonMoves (y : Pkg) (old : List Mover) : Pkg :=
  { y with deepFree := y.deepFree ++ (old.filter (·.into == 2)).map fun m => (m.dst, m.len) }

/-- WARM_MODULE_RESET (R359, R374, R378; DEDUCED, log 37). -/
def execWarmModuleReset (pkg : Nat) (s : State) : Out :=
  let y := s.pkg pkg
  let kept := { y.kept with
    failing := y.failing.filter (s.keptWarm pkg), weak := y.weak.filter (s.keptWarm pkg), cxlDown := y.cxlDown, granary := y.granary }
  let s1 := s.clearModule pkg (s.keptWarm pkg) (kept.abandonMoves y.movers).boot
  if (s1.pkg pkg).recovery then .next s1
  else .next (y.mirror.foldl (fun s x => if x.2.ctier = 2 then s.restoreEntry pkg x.1 x.2 else s.discardEntry pkg x.1 x.2) s1)

/-- COLD_MODULE_RESET (R374, R378; DEDUCED, log 37). -/
def execColdModuleReset (pkg : Nat) (s : State) : Out :=
  .next (s.clearModule pkg (fun pa => paPkg pa != pkg) (s.pkg pkg).kept.boot)

/-! ### Attestation (R375, R376) -/

/-- The fields of a tenant's configuration as R311 lists them: cluster set, pod partition, windows, ASIDs with their tables' roots, the
highest class, the granary, MSI-X vectors. -/
def configFields (c : TenantCfg) : List (List Nat) :=
  [[c.clset.toNat], [c.pbase.toNat, c.pcount.toNat], c.windows.flatMap fun w => [w.1, w.2],
    c.asids.flatMap fun a => [a.1.toNat, a.2.toNat], [c.classmax.toNat], [c.granw.toNat], c.vectors]

/-- A tenant's configuration as bytes, over which its measurement is taken (R311, R376; DESIGN CHOICE, log 18). -/
def configBytes (c : TenantCfg) : List Byte := (configFields c).zipIdx.flatMap fun x => Config.fieldBytes x.2 x.1

/-- The attestation report without its signature (R376). -/
def State.reportBody (s : State) (p tenant : Nat) (nonce : BitVec 256) : List Byte :=
  let y := s.pkg p
  let im := y.image.getD ⟨[], 0, 0⟩
  let tcfg := if tenant < 64 then (Config.sha512 (configBytes (s.tenant p tenant).cfg)).toNat else 0
  leBytes 4 1 ++ leBytes 4 tenant ++ leBytes 16 (Config.deviceId p).toNat ++ leBytes 8 im.svn ++
    leBytes 64 (Config.sha512 im.bytes).toNat ++ leBytes 64 tcfg ++ leBytes 32 nonce.toNat ++ leBytes 8 y.boots ++ leBytes 56 0

/-- ATTESTATION_REQUEST: the report, signed by the identity key; a device in recovery runs no Grexa (R374, R376). -/
def execAttestationRequest (pkg : Nat) (tenant : BitVec 32) (nonce : BitVec 256) (s : State) : Out :=
  let y := s.pkg pkg
  if y.recovery || !y.on || (64 ≤ tenant.toNat && tenant != 0xFFFFFFFF) then .next s
  else
    let b := s.reportBody pkg tenant.toNat nonce
    .next (s.setPkg pkg { y with report := b ++ leBytes 64 (Config.ed25519Sign pkg b).toNat })

/-! ### Power and management (R377, R379) -/

/-- THERMAL_THROTTLE: issue cycles are withheld, and nothing else changes (R377; DEDUCED, log 39). -/
def execThermalThrottle (pkg : Nat) (s : State) : Out := .next (s.setPkg pkg { s.pkg pkg with throttled := true })

/-- THERMAL_SHUTDOWN: the module is off (R377). -/
def execThermalShutdown (pkg : Nat) (s : State) : Out := .next (s.setPkg pkg { s.pkg pkg with on := false })

/-- POWER_CAP_SET (R377, R379). -/
def execPowerCapSet (pkg : Nat) (watts : Nat) (s : State) : Out := .next (s.setPkg pkg { s.pkg pkg with cap := watts })

/-- GREXA_IMAGE_STAGE: the second slot holds the new image, which the next boot verifies (R374, R379). -/
def execGrexaImageStage (pkg : Nat) (im : Image) (s : State) : Out :=
  .next (s.setPkg pkg { s.pkg pkg with images := (s.pkg pkg).images.set 1 (some im) })

/-- A measurement of the hottest junction and of the power: from 100 degrees on Grexa throttles, at 110 the module is off (R377). -/
def State.measured (s : State) (p celsius watts : Nat) : State :=
  let y := { s.pkg p with celsius := celsius, watts := watts }
  s.setPkg p { y with on := y.on && celsius < 110, throttled := y.throttled || 100 ≤ celsius }

/-- The running image, which the boot has verified, raises the fused version; it never lowers it (R374; DEDUCED, log 39). -/
def State.fuseRaised (s : State) (p version : Nat) : State :=
  let y := s.pkg p
  if y.image.isSome then s.setPkg p { y with fuse := max y.fuse version } else s

/-- What the management core serves over I3C beside reports, resets and staging: temperature, power and its cap, the errors by UNIT, corrected
ones and others, and the certificate of the identity key (R375, R377, R379). -/
structure Management where
  celsius : Nat
  watts   : Nat
  cap     : Nat
  corrected : List (Nat × Nat)
  uncorrected : List (Nat × Nat)
  certificate : List Byte
  deriving DecidableEq, Repr

/-- What a package's management core serves now (R379). -/
def Pkg.management (y : Pkg) : Management where
  celsius := y.celsius
  watts := y.watts
  cap := y.cap
  corrected := (y.errors.filter (·.1.2)).map fun e => (e.1.1, e.2)
  uncorrected := (y.errors.filter (!·.1.2)).map fun e => (e.1.1, e.2)
  certificate := y.certificate

/-- I3C_DYNAMIC_ADDRESS (R379). -/
def execI3cDynamicAddress (pkg : Nat) (addr : BitVec 7) (s : State) : Out := .next (s.setPkg pkg { s.pkg pkg with i3c := addr })

end Sys2Proof.Machine
end

