-- ==== Sys2Proof/Machine/Translate.lean ====
section
/-!
DEFINITION. The walker, invalidation, run-ahead fetch and data prefetch (R15, R304 to R309).
-/

namespace Sys2Proof.Machine

/-! ### The walker (R304, R305) -/

/-- An entry put into a TLB in which n entries that may take its place fit, the oldest of them giving way (DESIGN CHOICE, log 8). -/
def tlbInstall (n : Nat) (same : Tlb → Bool) (l : List Tlb) (t : Tlb) : List Tlb :=
  let l1 := l.filter fun x => !(x.asid == t.asid && x.size == t.size && x.vpn == t.vpn)
  (if (l1.filter same).length < n then l1
    else match l1.find? same with
      | some x => l1.erase x
      | none => l1) ++ [t]

/-- The set of an entry in a cluster's TLB (R304). -/
def Tlb.set (t : Tlb) : BitVec 10 := Config.tlbSet t.asid t.size t.vpn

/-- A leaf installed in the TLB of a core, which is fully associative, and in one of the 8 ways of its cluster's (R304). -/
def State.install (s : State) (g : CoreId) (t : Tlb) : State :=
  let s1 := s.setCore g { s.core g with tlb := tlbInstall 256 (fun _ => true) (s.core g).tlb t }
  let c := s1.cluster (clusterOf g)
  s1.setCluster (clusterOf g) { c with tlb := tlbInstall 8 (fun x => x.set == t.set) c.tlb t }

/-- A leaf installed for one that has asked for it: in the TLB of its core and its cluster's, or an engine's cluster's (R304). -/
def State.installFor (s : State) (t : Tlb) : Asker → State
  | .core g => s.install g t
  | .ahead g => s.install g t
  | .engine cl =>
    let c := s.cluster cl
    s.setCluster cl { c with tlb := tlbInstall 8 (fun x => x.set == t.set) c.tlb t }

/-- Those who have waited for a walk of a page take its result: a leaf installed, or a miss that their accesses meet (R305). -/
def State.answerWalk (s : State) (p : Nat) (l : List Asker) (asid : BitVec 14) (va : Word) (r : Except Miss Tlb) : State :=
  let s1 := match r with
    | .ok t => l.foldl (fun (s : State) a => s.installFor t a) s
    | .error m => s.setPkg p { s.pkg p with missed := (s.pkg p).missed ++ l.map fun a => (a, (asid, va.toNat / 65536), m) }
  { s1 with stalled := s1.stalled.filter fun g => !l.contains (.core g) }

/-- A walk of a request put into a free slot; an ASID that is not live gives no walk (R303, R305). -/
def State.startWalk (s : State) (p : Nat) (a : Asker) (asid : BitVec 14) (va : Word) : State :=
  match s.rootOf p asid (s.cluster (clusterOf a.lead)).tenant with
  | .error m => s.answerWalk p [a] asid va (.error m)
  | .ok root =>
    let y := s.pkg p
    (s.setPkg p { y with walks := y.walks ++ [⟨[a], asid, va, 0, root⟩] }).post (.pageWalk a.lead asid va)

/-- The requests that have waited longest join a walk of their page or start one while slots are free, n at most (R305). -/
def State.startQueued (s : State) (p : Nat) : Nat → State
  | 0 => s
  | n + 1 =>
    let y := s.pkg p
    match y.walkq with
    | [] => s
    | (a, asid, va) :: r =>
      let s1 := s.setPkg p { y with walkq := r }
      if y.walks.any (·.serves asid va) then (s1.setPkg p ((s1.pkg p).ask a asid va)).startQueued p n
      else if 256 ≤ y.walks.length then s
      else (s1.startWalk p a asid va).startQueued p n

/-- Free slots taken by the requests that wait (R305). -/
def State.refillWalks (s : State) (p : Nat) : State := s.startQueued p (s.pkg p).walkq.length

/-- A walk is over: those that it serves take its result, and its slot goes to the request that has waited longest (R305). -/
def State.endWalk (s : State) (p : Nat) (w : Walk) (r : Except Miss Tlb) : State :=
  let y := s.pkg p
  ((s.setPkg p { y with walks := y.walks.filter fun x => !x.serves w.asid w.va }).answerWalk p w.askers w.asid w.va r).refillWalks p

/-- PAGE_WALK: a request of a core joins the walk of its page in progress, starts one, or waits for a slot in arrival order; a walk in
progress reads one entry. A leaf is installed for every request that it serves; a failed walk installs nothing (R300, R305, R365). -/
def execPageWalk (g : CoreId) (asid : BitVec 14) (va : Word) (s : State) : Out :=
  let p := pkgOf g
  let y := s.pkg p
  if isAlias va then .next s
  else match y.walks.find? (·.serves asid va) with
  | none =>
    if 256 ≤ y.walks.length || y.walkq != [] then .next (s.setPkg p (y.ask (.core g) asid va))
    else .next (s.startWalk p (.core g) asid va)
  | some w =>
    if !w.askers.any (·.lead == g) then .next (s.setPkg p (y.ask (.core g) asid va))
    else
      let s1 := s.noteRuns [(w.table_ + 8 * levelIndex va w.level, 8)]
      match s.walkRead p asid va w.level w.table_ with
      | .leaf t => .next (s1.endWalk p w (.ok t))
      | .next t =>
        if w.level = 3 then .next (s1.endWalk p w (.error .page))
        else
          let on := y.walks.map fun x => if x.serves asid va then { x with level := w.level + 1, table_ := t } else x
          .next ((s1.setPkg p { s1.pkg p with walks := on }).post (.pageWalk g asid va))
      | .miss m => .next (s1.endWalk p w (.error m))

/-! ### Invalidation (R306, R307) -/

/-- TLBINV_TENANT: the record is read and queued; a full queue holds it (R306). -/
def execTlbinvTenant (pkg : Nat) (t : BitVec 6) (pa : Pa) (s : State) : Out :=
  if 64 ≤ (s.pkg pkg).tlbinv.length then s.again (.tlbinvTenant pkg t pa) else .next (s.tlbinvPush pkg (some t) pa)

/-- TLBINV_GREXA (R306). -/
def execTlbinvGrexa (pkg : Nat) (pa : Pa) (s : State) : Out :=
  if 64 ≤ (s.pkg pkg).tlbinv.length then s.again (.tlbinvGrexa pkg pa) else .next (s.tlbinvPush pkg none pa)

/-- The tenant that the ASID table names for an ASID (R303). -/
def State.asidTenant (s : State) (p : Nat) (asid : BitVec 14) : Nat :=
  field (memWord s.mem (s.asidEntry p asid + 8)) 48 6

/-- The ASIDs that a command reaches, and for scope 0 the address (R306). -/
def State.tlbinvHits (s : State) (p : Nat) (t : Option (BitVec 6)) (va w : Word) (asid : BitVec 14) (e : Option Tlb) : Bool :=
  let named := BitVec.ofNat 14 (field w 0 14)
  let mine := match t with
    | some t => s.asidTenant p asid == t.toNat
    | none => true
  match field w 62 2 with
  | 0 => asid == named && mine && match e with
    | some e => e.hits asid va
    | none => true
  | 1 => asid == named && mine
  | 2 => mine
  | _ => false

/-- A core after the removals of a command: its TLB entries and the lines fetched through them (R307). -/
def Core.invalidated (c : Core) (hit : BitVec 14 → Option Tlb → Bool) : Core :=
  { c with
    tlb := c.tlb.filter fun e => !hit e.asid (some e)
    line := if hit c.co.asid none then none else c.line
    ahead := c.ahead.filter fun l => !hit l.asid none }

/-- A copy, or a queued or running job, of the cluster has translated through an entry of one of the ASIDs (R307). -/
def State.drains (s : State) (cl : Nat) (hit : BitVec 14 → Bool) : Bool :=
  let c := s.cluster cl
  let job := fun (j : Job) => match j.kind with
    | .stream _ w _ _ _ => hit w.asid || hit j.asid
    | _ => false
  c.copies.any (fun x => x.pages.any fun y => hit y.1) || (c.unit.granted.toList ++ c.unit.running.toList).any job ||
    (List.range 8).any fun j => (s.core (cl * 8 + j)).jobs.any job

/-- An uncommitted chunk of a core has used a translation of one of the ASIDs: the executing one, and the one that waits (R307). -/
def Core.translatedBy (c : Core) (hit : BitVec 14 → Bool) : Bool × Bool :=
  (c.chunk.pages.any (hit ·.1), c.waiting.any fun k => k.pages.any (hit ·.1))

/-- The removals of a command: the chunks that used its entries are squashed, the entries and the lines fetched through them are gone,
and walks in progress that could have read what was there start again (R307; DEDUCED, log 30). -/
def State.invalidate (s : State) (pkg : Nat) (hit : BitVec 14 → Option Tlb → Bool) : State :=
  let used := s.cores.filter fun x => pkgOf x.1 == pkg && x.2.running.isSome &&
    ((x.2.translatedBy (hit · none)).1 || (x.2.translatedBy (hit · none)).2)
  let s1 := used.foldl (fun s x => s.squash x.1 (x.2.translatedBy (hit · none)).2) s
  let y := s1.pkg pkg
  let s2 := (s1.setPkg pkg { y with walks := y.walks.filter fun w => !hit w.asid none }).refillWalks pkg
  { s2 with
    stalled := []
    cores := s2.cores.map fun (x : Nat × Core) => if pkgOf x.1 = pkg then (x.1, x.2.invalidated hit) else x
    clusters := s2.clusters.map fun (x : Nat × Cluster) =>
      if x.1 / 128 = pkg then (x.1, { x.2 with tlb := x.2.tlb.filter fun e => !hit e.asid (some e) }) else x }

/-- TLBINV_COMPLETE: the first command removes its entries; once the engines have drained it is complete and signals its token
(R306, R307; DEDUCED, log 30). -/
def execTlbinvComplete (pkg : Nat) (s : State) : Out :=
  match (s.pkg pkg).tlbinv with
  | [] => .next s
  | (t, va, w, tok) :: rest =>
    let hit := s.tlbinvHits pkg t va w
    let s2 := s.invalidate pkg hit
    if s2.clusters.any fun x => x.1 / 128 == pkg && s2.drains x.1 (hit · none) then s2.again (.tlbinvComplete pkg)
    else
      let s3 := { s2.setPkg pkg { s2.pkg pkg with tlbinv := rest } with stalled := [] }
      let ok := match t with
        | some t => s.inWindow pkg t.toNat tok.toNat 8
        | none => true
      .next (if tok ≠ 0 && ok then s3.post (.tokenSignalAtHome (.unit pkg (t.getD 0) 0) tok.toNat (-1)) else s3)

/-! ### Fetch ahead and prefetch (R15, R308, R309) -/

/-- What a run-ahead fetch of the line at a base gives: the line, and the failing byte that it has met (R15, R308, R366). -/
def State.aheadLine (s : State) (g : CoreId) (sp : Space) (base : Word) : Line × Option Pa :=
  let asid := (s.core g).co.asid
  match s.translate sp .fetch base 64 with
  | .error e => (⟨base, asid, false, none⟩, e.1.bad)
  | .ok segs =>
    let pas := segBytes segs
    let bad := pas.find? s.failing
    let held := !s.lineUnfit segs && !s.lineBarred g segs && bad.isNone
    (⟨base, asid, segs.all (·.u), if held then some (pas.map (memGet s.mem)) else none⟩, bad)

/-- RUN_AHEAD_FETCH: the core holds one more of the four lines after the PC's; a line that cannot be had is held without a
fault, and an error that it meets is recorded (R15, R308, R366). It waits for the walker as an access does (R305). -/
def execRunAheadFetch (g : CoreId) (va : Word) (s : State) : Out :=
  let c := s.core g
  let base := lineBase va
  let dist := (base - lineBase c.co.pc).toNat
  let sp := { s.spaceOf g with ahead := true }
  if c.running.isNone || 4 ≤ c.ahead.length || dist == 0 || 256 < dist || c.ahead.any (fun l => l.va == base && l.asid == c.co.asid)
  then .next s
  else if s.mustWalk sp base then
    let y := s.pkg (pkgOf g)
    let s1 := if y.asked (.ahead g) sp.asid base then s else s.setCore g ((c.countRun 11 1).countRun 12 1)
    (s1.setPkg (pkgOf g) (y.ask (.ahead g) sp.asid base)).again (.runAheadFetch g va)
  else
    let x := s.aheadLine g sp base
    let s1 := if isAlias base then s else (s.noteLookups g sp [base]).takeMissed (pkgOf g) (.ahead g)
    let s2 := match s.translate sp .fetch base 64 with
      | .ok segs => s1.noteReads (segBytes segs)
      | .error _ => s1
    let s3 := s2.setCore g { s2.core g with ahead := c.ahead ++ [x.1] }
    .next (match x.2 with
      | some bad => s3.memoryError (pkgOf g) c.co.tenant 1 bad c.co.cid
      | none => s3)

/-- The line that a data prefetcher may request for an address: a translation in a TLB, this package, and no byte of it locked as a
source or a destination (R259, R309). -/
def State.prefetchable (s : State) (g : CoreId) (va : Word) : Option Nat :=
  let sp := s.spaceOf g
  match s.tlbEntry sp va with
  | none => none
  | some t =>
    let pa := (t.ppn * 2 ^ t.size + va.toNat % 2 ^ t.size) / 128 * 128
    if s.permits sp .load t && paPkg pa == pkgOf g && s.inL1 (lineOf pa) &&
      (firstLocked (s.pkg (pkgOf g)).locks true 0 ((List.range 128).map (pa + ·))).isNone then some (lineOf pa) else none

/-- DATA_PREFETCH: the line of a virtual address is requested (0), the line at a pod physical address that is outstanding arrives (1), or one
that no access has used is evicted, which counts as early (2 or 3). The accesses themselves count useful and late (R76, R309). -/
def execDataPrefetch (g : CoreId) (va : Word) (outcome : BitVec 2) (s : State) : Out :=
  let c := s.core g
  let l := va.toNat / 128
  match outcome.toNat with
  | 0 => .next (match s.prefetchable g va with
    | some l => if c.prefetch.any (·.1 == l) then s else s.setCore g ({ c with prefetch := c.prefetch ++ [(l, false)] }.countRun 7 1)
    | none => s)
  | 1 => .next (s.setCore g { c with prefetch := c.prefetch.map fun x => if x.1 = l then (l, true) else x })
  | _ =>
    .next (if c.prefetch.contains (l, true) then s.setCore g ({ c with prefetch := c.prefetch.erase (l, true) }.countRun 10 1) else s)

end Sys2Proof.Machine
end

