-- ==== Sys2Proof/Machine/VIssue.lean ====
section
/-!
DEFINITION. VISSUE: instructions that the elements of a vector register hold (R154 to R166).
-/

namespace Sys2Proof.Machine

/-! ### Words (R155, R156, R159) -/

/-- The instruction that a word stands for: its head and its 32-bit tail, decoded by the tables of its chapter (R155, R156). -/
def wordInstr (w : Word) : Option Instr :=
  if field w 48 16 ≠ 0 ∨ field w 14 2 = 3 ∨ (field w 14 2 = 1 ∧ field w 32 16 ≠ 0) ∨ (field w 14 2 = 0 ∧ field w 16 32 ≠ 0) then none
  else match decode (w.extractLsb' 0 16) (BitVec.ofNat 64 (field w 16 32)) with
    | .ok i => some i
    | .error _ => none

/-- The load or store that an indexed word stands for. -/
def wordMem (i : Instr) : Option VMemOp :=
  match i with
  | .vldx o => some (indexedOp o false)
  | .vstx o => some (indexedOp o true)
  | _ => none

/-- The computing instruction that a word stands for: majors 0x21 to 0x25 but VMVX (R156). -/
def wordSem (w : Word) (i : Instr) : Option VSem :=
  match i with
  | .vmvx _ => none
  | _ => if 0x21 ≤ field w 8 6 ∧ field w 8 6 ≤ 0x25 then vecSem i else none

/-- The vector registers that a word writes (R159). -/
def wordWrites (w : Word) (i : Instr) : List Reg :=
  let d : Reg := w.extractLsb' 3 5
  match i with
  | .vqblk _ => [d, 7]
  | .vstx _ => []
  | .vissue _ _ _ _ _ => []
  | _ => if field w 8 6 = 0x24 then [] else [d]

/-- The mask registers that a word writes. -/
def wordMasks (w : Word) (i : Instr) : List (BitVec 3) :=
  match i with
  | .vissue _ c fm _ _ => if fm then [c.setWidth 3] else []
  | _ => if field w 8 6 = 0x24 then [w.extractLsb' 3 3] else []

/-- legal(w, depth, prot) at the current vtype, vl and D (R159). -/
def Co.legal (c : Co) (nested : Bool) (prot : List Reg) (mprot : List (BitVec 3)) (w : Word) : Bool :=
  match wordInstr w with
  | none => false
  | some i =>
    (match i with
      | .vissue a _ _ _ _ => !nested && c.regsOk [a]
      | _ => match wordMem i with
        | some m => m.ok c
        | none => match wordSem w i with
          | some m => m.ok c
          | none => false) &&
      (wordWrites w i).all (fun r => !prot.contains r) && (wordMasks w i).all fun m => !mprot.contains m

/-! ### Groups (R157, R160) -/

/-- The word of element i. -/
def Co.wordAt (c : Co) (a : Reg) (i : Nat) : Word := BitVec.ofNat 64 (c.elem a.toNat 64 i)

/-- What a VISSUE finds: its active elements, the elements with bad words, and the words to issue, in order. -/
structure Grouping where
  act  : List Nat
  bad  : List Nat
  list : List Word
  deriving DecidableEq, Repr

/-- The grouping of the words of v[a] over the elements given (R157). -/
def Co.grouping (c : Co) (a : Reg) (nested : Bool) (prot : List Reg) (mprot : List (BitVec 3)) (act : List Nat) : Grouping :=
  let words := (act.map (c.wordAt a)).eraseDups
  let good := (words.take 64).filter (c.legal nested prot mprot)
  ⟨act, act.filter fun i => !good.contains (c.wordAt a i), good⟩

/-- The elements of a group as a mask. -/
def groupMask (l : List Nat) : BitVec 65536 := l.foldl (fun m i => maskPut m i true) 0

/-- The group of a word. -/
def Co.groupOf (c : Co) (a : Reg) (g : Grouping) (w : Word) : List Nat := g.act.filter fun i => c.wordAt a i == w

/-- The fault mask written over the active elements (R160). -/
def Co.faultMask (c : Co) (fm : Bool) (mc : BitVec 3) (g : Grouping) : Co :=
  if fm then c.mput mc (g.act.map fun i => (i, g.bad.contains i)) else c

/-! ### istate (R75, R163) -/

/-- istate from G0, NEST and G1. -/
def mkIstate (g0 nest g1 : Nat) : BitVec 17 := BitVec.ofNat 17 (nest * 65536 + g1 * 256 + g0)

/-- Event 13 counts n groups as they issue; a group that its chunk's limits have split has been counted (R76, R161, R162). -/
def State.groupsIssued (s : State) (n : Nat) : State := if s.co.cont = 0 then s.setCur (s.cur.countRun 13 n) else s

/-! ### A word under its group (R158, R162, R164) -/

/-- The scalar registers of the capture that a word reads. -/
def wordScalars (w : Word) (i : Instr) : List Reg :=
  match wordMem i with
  | some m => m.rs
  | none => match wordSem w i with
    | some m => m.rs
    | none => []

/-- The vector and mask registers that a word reads. -/
def wordSources (w : Word) (i : Instr) : List Reg × List (BitVec 3) :=
  match wordMem i with
  | some m => (m.index ++ if m.store then m.data else [], m.o.mask)
  | none => match wordSem w i with
    | some m => (m.vsrc, m.msrc)
    | none => ([], [])

/-- A register that a word reads and that holds an uncorrectable error: its file and number (R367). -/
def Ext.badWord (e : Ext) (w : Word) (i : Instr) : Option (Nat × Nat) :=
  match (wordScalars w i).find? fun r => r != 0 && e.badRegs.contains (0, r.toNat) with
  | some r => some (0, r.toNat)
  | none => e.badVector (wordSources w i).1 (wordSources w i).2

/-- A fault at element i of a group, or the wait until it can be taken (R164). -/
def State.groupFault (s t : State) (todo : List Nat) (i : Nat) (e : Trap) : State :=
  if t.trapReady then t.elementTrap i e else (s.paused t todo i).notYet (s.paused t todo i)

/-- A load or store executed under a group, with n groups issued (R162, R164). -/
def State.runMemory (s : State) (n : Nat) (m : VMemOp) (mask : Option (BitVec 65536)) : Except State State :=
  if s.ext.holds (fun _ => m.touch mask s.co) m.o.mask then .error s.stall
  else if 64 ≤ s.cur.chunk.vmem then .error s.cutChunk
  else
    let todo := s.co.toDo mask m.o
    match (s.groupsIssued n).elements (m.element mask (s.rd m.o.a) (s.rd m.o.b)) todo with
    | .done t => .ok t.memoryDone
    | .trap t i e => .error (s.groupFault t todo i e)
    | .cut t i => .error (s.paused t todo i).cutChunk
    | .wait t i => .error (s.paused t todo i).stall

/-- A word executed under a group, with n groups issued: the state after it, or what the core does instead. The mark of a failed load in
a scalar operand is a fault of the group at its lowest element, and stays (R158). -/
def State.runWord (s : State) (n : Nat) (w : Word) (i : Instr) (grp : List Nat) : Except State State :=
  let mask := some (groupMask grp)
  match (wordScalars w i).find? fun r => r != 0 && (s.co.mark r).isSome with
  | some r => .error (s.groupFault s grp (grp.headD 0) ⟨8, (s.co.mark r).getD 0, 0, none⟩)
  | none => match s.ext.badWord w i with
  | some (f, k) => .error (if s.trapReady then s.registerError f k else s.notYet s)
  | none =>
    match wordMem i with
    | some m => s.runMemory n m mask
    | none =>
      match wordSem w i with
      | none => .ok s
      | some m =>
        let a := s.rd (BitVec.ofNat 5 (field w 43 5))
        let b := s.rd (BitVec.ofNat 5 (field w 38 5))
        if s.ext.holds (fun _ => m.touch a b s.co mask) m.masks then .error s.stall
        else .ok ((s.groupsIssued n).setCo { (m.run a b mask s.co).1 with vstart := 0 })

/-- The next group of a nested VISSUE that is group number outer, and whether it was the last (R161, R163). Event 13 counts the nested
VISSUE's own group as its first group issues. -/
def State.runNested (s : State) (outer : Nat) (prot : List Reg) (mprot : List (BitVec 3)) (i : Instr) (grp : List Nat) :
    Except State (State × Bool) :=
  match i with
  | .vissue a c fm masked mr =>
    let act := grp.filter fun j => !masked || s.co.mbit mr j
    let mm := if masked then [mr] else []
    let ms := mm ++ if fm then [c.setWidth 3] else []
    match s.ext.badVector [a] mm with
    | some (f, n) => .error (if s.trapReady then s.registerError f n else s.notYet s)
    | none =>
    if s.ext.holds (fun _ => act.map (groupAt 64 a)) ms then .error s.stall
    else
      let nest := s.co.istate.getLsbD 16
      let own := if nest then 0 else 1
      let skip := if nest then field (s.co.istate.setWidth 64) 8 7 else 0
      let g := s.co.grouping a true (a :: prot) (ms ++ mprot) act
      if !fm && g.bad != [] then
        let t := (s.groupsIssued own).setCo { s.co with istate := mkIstate outer 1 0 }
        .error (if s.trapReady then t.takeTrap ⟨9, BitVec.ofNat 64 (g.bad.headD 0), 0, none⟩ s.co.pc else s.notYet s)
      else
        let t := s.setCo (s.co.faultMask fm (c.setWidth 3) g)
        match g.list[skip]?.bind fun w => (wordInstr w).map fun j => (w, j) with
        | none =>
          let u := t.groupsIssued own
          .ok (u.setCo { u.co with vstart := 0 }, true)
        | some (w, j) =>
          match t.runWord (own + 1) w j (t.co.groupOf a g w) with
          | .error u => .error u
          | .ok u => .ok (u.setCo { u.co with istate := mkIstate outer 1 (skip + 1) }, g.list.length ≤ skip + 1)
  | _ => .ok (s, true)

/-- VISSUE: its next group, or the next one of the nested VISSUE that is its next group; the PC moves on after the last (R157 to R164).
Between two groups the core can stop it (R165). -/
def execVissue (a c : Reg) (fm : Bool) (masked : Bool) (mr : BitVec 3) (s : State) : Out :=
  let co := s.co
  let mm := if masked then [mr] else []
  let ms := mm ++ if fm then [c.setWidth 3] else []
  if !(co.regsOk [a] && co.vl.toNat ≤ vlmaxW 64 co.nregs) then s.illegal (.vissue a c fm masked mr)
  else if co.pend != 0 then
    .next (if (List.range 32).any fun r => s.cur.chunk.owes (BitVec.ofNat 5 r) then s.cutChunk else s.stall)
  else if !s.cur.vq.isEmpty then .next s.stall
  else s.vread [a] mm <|
    let act := (List.range co.vl.toNat).filter fun j => !masked || co.mbit mr j
    if s.ext.holds (fun _ => act.map (groupAt 64 a)) ms then .next s.stall
    else
      let g := co.grouping a false [a] ms act
      if !fm && g.bad != [] then s.trapHere 9 (BitVec.ofNat 64 (g.bad.headD 0))
      else
        let n := field (co.istate.setWidth 64) 0 7
        let t := s.setCo (co.faultMask fm (c.setWidth 3) g)
        let complete := fun (u : State) => (u.setCo { u.co with istate := 0, vstart := 0 }).finish
        match g.list[n]?.bind fun w => (wordInstr w).map fun j => (w, j) with
        | none => complete t
        | some (w, j) =>
          let grp := co.groupOf a g w
          let out := match j with
            | .vissue .. => t.runNested n [a] ms j grp
            | _ => (t.runWord 1 w j grp).map fun u => (u, true)
          match out with
          | .error u => .next u
          | .ok (u, false) => .next u
          | .ok (u, true) =>
            if g.list.length ≤ n + 1 then complete u else .next (u.setCo { u.co with istate := mkIstate (n + 1) 0 0 })

end Sys2Proof.Machine
end

