-- ==== Sys2Proof/Machine/Dispatch.lean ====
section
/-! DEFINITION. What each operation does: one call of its meaning per constructor of Instr. -/

namespace Sys2Proof.Machine

def exec (i : Instr) (s : State) : Host.Outcome State Fault Refusal :=
  match i with
  | .nop => Sys2Proof.Machine.execNop s
  | .yield => Sys2Proof.Machine.execYield s
  | .exit d => Sys2Proof.Machine.execExit d s
  | .eret => Sys2Proof.Machine.execEret s
  | .brk => Sys2Proof.Machine.execBrk s
  | .snap => Sys2Proof.Machine.execSnap s
  | .csrr d csr => Sys2Proof.Machine.execCsrr d csr s
  | .csrw d a csr => Sys2Proof.Machine.execCsrw d a csr s
  | .csrs d a csr => Sys2Proof.Machine.execCsrs d a csr s
  | .csrc d a csr => Sys2Proof.Machine.execCsrc d a csr s
  | .trap code => Sys2Proof.Machine.execTrap code s
  | .add d a b => Sys2Proof.Machine.execAdd d a b s
  | .sub d a b => Sys2Proof.Machine.execSub d a b s
  | .mul d a b => Sys2Proof.Machine.execMul d a b s
  | .mulh d a b => Sys2Proof.Machine.execMulh d a b s
  | .mulhn d a b => Sys2Proof.Machine.execMulhn d a b s
  | .div d a b => Sys2Proof.Machine.execDiv d a b s
  | .divn d a b => Sys2Proof.Machine.execDivn d a b s
  | .rem d a b => Sys2Proof.Machine.execRem d a b s
  | .remn d a b => Sys2Proof.Machine.execRemn d a b s
  | .and d a b => Sys2Proof.Machine.execAnd d a b s
  | .or d a b => Sys2Proof.Machine.execOr d a b s
  | .xor d a b => Sys2Proof.Machine.execXor d a b s
  | .andn d a b => Sys2Proof.Machine.execAndn d a b s
  | .shl d a b => Sys2Proof.Machine.execShl d a b s
  | .shr d a b => Sys2Proof.Machine.execShr d a b s
  | .sra d a b => Sys2Proof.Machine.execSra d a b s
  | .rol d a b => Sys2Proof.Machine.execRol d a b s
  | .min d a b => Sys2Proof.Machine.execMin d a b s
  | .max d a b => Sys2Proof.Machine.execMax d a b s
  | .minn d a b => Sys2Proof.Machine.execMinn d a b s
  | .maxn d a b => Sys2Proof.Machine.execMaxn d a b s
  | .slt d a b => Sys2Proof.Machine.execSlt d a b s
  | .sltn d a b => Sys2Proof.Machine.execSltn d a b s
  | .seq d a b => Sys2Proof.Machine.execSeq d a b s
  | .clz d a => Sys2Proof.Machine.execClz d a s
  | .ctz d a => Sys2Proof.Machine.execCtz d a s
  | .popc d a => Sys2Proof.Machine.execPopc d a s
  | .addi d a imm => Sys2Proof.Machine.execAddi d a imm s
  | .andi d a imm => Sys2Proof.Machine.execAndi d a imm s
  | .ori d a imm => Sys2Proof.Machine.execOri d a imm s
  | .xori d a imm => Sys2Proof.Machine.execXori d a imm s
  | .slti d a imm => Sys2Proof.Machine.execSlti d a imm s
  | .shli d a imm => Sys2Proof.Machine.execShli d a imm s
  | .shri d a imm => Sys2Proof.Machine.execShri d a imm s
  | .srai d a imm => Sys2Proof.Machine.execSrai d a imm s
  | .liW d imm => Sys2Proof.Machine.execLiW d imm s
  | .liD d imm => Sys2Proof.Machine.execLiD d imm s
  | .sel d a b c => Sys2Proof.Machine.execSel d a b c s
  | .fadd dbl d a b => Sys2Proof.Machine.execFadd dbl d a b s
  | .fsub dbl d a b => Sys2Proof.Machine.execFsub dbl d a b s
  | .fmul dbl d a b => Sys2Proof.Machine.execFmul dbl d a b s
  | .fdiv dbl d a b => Sys2Proof.Machine.execFdiv dbl d a b s
  | .fsqrt dbl d a => Sys2Proof.Machine.execFsqrt dbl d a s
  | .fmin dbl d a b => Sys2Proof.Machine.execFmin dbl d a b s
  | .fmax dbl d a b => Sys2Proof.Machine.execFmax dbl d a b s
  | .feq dbl d a b => Sys2Proof.Machine.execFeq dbl d a b s
  | .flt dbl d a b => Sys2Proof.Machine.execFlt dbl d a b s
  | .fle dbl d a b => Sys2Proof.Machine.execFle dbl d a b s
  | .fcvtif dbl d a => Sys2Proof.Machine.execFcvtif dbl d a s
  | .fcvtfi dbl d a => Sys2Proof.Machine.execFcvtfi dbl d a s
  | .fclass dbl d a => Sys2Proof.Machine.execFclass dbl d a s
  | .ffma d a b c y => Sys2Proof.Machine.execFfma d a b c y s
  | .ffms d a b c y => Sys2Proof.Machine.execFfms d a b c y s
  | .fnma d a b c y => Sys2Proof.Machine.execFnma d a b c y s
  | .ldb d a imm => Sys2Proof.Machine.execLdb d a imm s
  | .ldh d a imm => Sys2Proof.Machine.execLdh d a imm s
  | .ldw d a imm => Sys2Proof.Machine.execLdw d a imm s
  | .ldd d a imm => Sys2Proof.Machine.execLdd d a imm s
  | .ldnb d a imm => Sys2Proof.Machine.execLdnb d a imm s
  | .ldnh d a imm => Sys2Proof.Machine.execLdnh d a imm s
  | .ldnw d a imm => Sys2Proof.Machine.execLdnw d a imm s
  | .stb d a imm => Sys2Proof.Machine.execStb d a imm s
  | .sth d a imm => Sys2Proof.Machine.execSth d a imm s
  | .stw d a imm => Sys2Proof.Machine.execStw d a imm s
  | .std d a imm => Sys2Proof.Machine.execStd d a imm s
  | .aadd dbl d a b scope => Sys2Proof.Machine.execAadd dbl d a b scope s
  | .aand dbl d a b scope => Sys2Proof.Machine.execAand dbl d a b scope s
  | .aor dbl d a b scope => Sys2Proof.Machine.execAor dbl d a b scope s
  | .axor dbl d a b scope => Sys2Proof.Machine.execAxor dbl d a b scope s
  | .amin dbl d a b scope => Sys2Proof.Machine.execAmin dbl d a b scope s
  | .amax dbl d a b scope => Sys2Proof.Machine.execAmax dbl d a b scope s
  | .aminn dbl d a b scope => Sys2Proof.Machine.execAminn dbl d a b scope s
  | .amaxn dbl d a b scope => Sys2Proof.Machine.execAmaxn dbl d a b scope s
  | .aswp dbl d a b scope => Sys2Proof.Machine.execAswp dbl d a b scope s
  | .acas dbl d a b c scope => Sys2Proof.Machine.execAcas dbl d a b c scope s
  | .ldf d a imm => Sys2Proof.Machine.execLdf d a imm s
  | .stf d a imm => Sys2Proof.Machine.execStf d a imm s
  | .beq a b off => Sys2Proof.Machine.execBeq a b off s
  | .bne a b off => Sys2Proof.Machine.execBne a b off s
  | .blt a b off => Sys2Proof.Machine.execBlt a b off s
  | .bge a b off => Sys2Proof.Machine.execBge a b off s
  | .bltn a b off => Sys2Proof.Machine.execBltn a b off s
  | .bgen a b off => Sys2Proof.Machine.execBgen a b off s
  | .j imm => Sys2Proof.Machine.execJ imm s
  | .jal d imm => Sys2Proof.Machine.execJal d imm s
  | .jr d a imm => Sys2Proof.Machine.execJr d a imm s
  | .loop x d p st len => Sys2Proof.Machine.execLoop x d p st len s
  | .fenceCluster => Sys2Proof.Machine.execFenceCluster s
  | .fencePackage => Sys2Proof.Machine.execFencePackage s
  | .fencePod => Sys2Proof.Machine.execFencePod s
  | .fencet d => Sys2Proof.Machine.execFencet d s
  | .spawn d a b c e y => Sys2Proof.Machine.execSpawn d a b c e y s
  | .await d live => Sys2Proof.Machine.execAwait d live s
  | .awaitw d live => Sys2Proof.Machine.execAwaitw d live s
  | .awaitg d live => Sys2Proof.Machine.execAwaitg d live s
  | .awaitb n live => Sys2Proof.Machine.execAwaitb n live s
  | .awaitc x d live => Sys2Proof.Machine.execAwaitc x d live s
  | .tarm a b => Sys2Proof.Machine.execTarm a b s
  | .tsig a b => Sys2Proof.Machine.execTsig a b s
  | .thw a b => Sys2Proof.Machine.execThw a b s
  | .tpoll d a => Sys2Proof.Machine.execTpoll d a s
  | .tarmc a b => Sys2Proof.Machine.execTarmc a b s
  | .tsigc a b => Sys2Proof.Machine.execTsigc a b s
  | .tpollc d a => Sys2Proof.Machine.execTpollc d a s
  | .msend d a b => Sys2Proof.Machine.execMsend d a b s
  | .mrecv d a => Sys2Proof.Machine.execMrecv d a s
  | .mhand a => Sys2Proof.Machine.execMhand a s
  | .park d live => Sys2Proof.Machine.execPark d live s
  | .balloc d => Sys2Proof.Machine.execBalloc d s
  | .bfree a => Sys2Proof.Machine.execBfree a s
  | .cpyMem d a => Sys2Proof.Machine.execCpyMem d a s
  | .cpyVec d a => Sys2Proof.Machine.execCpyVec d a s
  | .cpyb d a masked mr => Sys2Proof.Machine.execCpyb d a masked mr s
  | .cpyvl d a b n => Sys2Proof.Machine.execCpyvl d a b n s
  | .cpyvs d a b n => Sys2Proof.Machine.execCpyvs d a b n s
  | .cpyrr d a b c n => Sys2Proof.Machine.execCpyrr d a b c n s
  | .cpyvg d a b c => Sys2Proof.Machine.execCpyvg d a b c s
  | .cseal => Sys2Proof.Machine.execCseal s
  | .xbswap d a b c p y => Sys2Proof.Machine.execXbswap d a b c p y s
  | .setvl d a dc t => Sys2Proof.Machine.execSetvl d a dc t s
  | .setvlhw d a b dc t => Sys2Proof.Machine.execSetvlhw d a b dc t s
  | .vadd o => Sys2Proof.Machine.execVadd o s
  | .vsub o => Sys2Proof.Machine.execVsub o s
  | .vmul o => Sys2Proof.Machine.execVmul o s
  | .vmulh o => Sys2Proof.Machine.execVmulh o s
  | .vdiv o => Sys2Proof.Machine.execVdiv o s
  | .vrem o => Sys2Proof.Machine.execVrem o s
  | .vand o => Sys2Proof.Machine.execVand o s
  | .vor o => Sys2Proof.Machine.execVor o s
  | .vxor o => Sys2Proof.Machine.execVxor o s
  | .vshl o => Sys2Proof.Machine.execVshl o s
  | .vshr o => Sys2Proof.Machine.execVshr o s
  | .vsra o => Sys2Proof.Machine.execVsra o s
  | .vmin o => Sys2Proof.Machine.execVmin o s
  | .vmax o => Sys2Proof.Machine.execVmax o s
  | .vsadd o => Sys2Proof.Machine.execVsadd o s
  | .vssub o => Sys2Proof.Machine.execVssub o s
  | .vfadd o => Sys2Proof.Machine.execVfadd o s
  | .vfsub o => Sys2Proof.Machine.execVfsub o s
  | .vfmul o => Sys2Proof.Machine.execVfmul o s
  | .vfdiv o => Sys2Proof.Machine.execVfdiv o s
  | .vfsqrt o => Sys2Proof.Machine.execVfsqrt o s
  | .vfmin o => Sys2Proof.Machine.execVfmin o s
  | .vfmax o => Sys2Proof.Machine.execVfmax o s
  | .vfabs o => Sys2Proof.Machine.execVfabs o s
  | .vffma o => Sys2Proof.Machine.execVffma o s
  | .vffms o => Sys2Proof.Machine.execVffms o s
  | .vfnma o => Sys2Proof.Machine.execVfnma o s
  | .vfrcp o => Sys2Proof.Machine.execVfrcp o s
  | .vfrsq o => Sys2Proof.Machine.execVfrsq o s
  | .vfrcps o => Sys2Proof.Machine.execVfrcps o s
  | .vfrsqs o => Sys2Proof.Machine.execVfrsqs o s
  | .vfexp2 o => Sys2Proof.Machine.execVfexp2 o s
  | .vcvt o => Sys2Proof.Machine.execVcvt o s
  | .vcvts o => Sys2Proof.Machine.execVcvts o s
  | .vqblk o => Sys2Proof.Machine.execVqblk o s
  | .veq o => Sys2Proof.Machine.execVeq o s
  | .vne o => Sys2Proof.Machine.execVne o s
  | .vlt o => Sys2Proof.Machine.execVlt o s
  | .vle o => Sys2Proof.Machine.execVle o s
  | .vgt o => Sys2Proof.Machine.execVgt o s
  | .vge o => Sys2Proof.Machine.execVge o s
  | .vfeq o => Sys2Proof.Machine.execVfeq o s
  | .vflt o => Sys2Proof.Machine.execVflt o s
  | .vfle o => Sys2Proof.Machine.execVfle o s
  | .vfunord o => Sys2Proof.Machine.execVfunord o s
  | .vmv o => Sys2Proof.Machine.execVmv o s
  | .vmvs o => Sys2Proof.Machine.execVmvs o s
  | .vmvx o => Sys2Proof.Machine.execVmvx o s
  | .vmerge o => Sys2Proof.Machine.execVmerge o s
  | .vidx o => Sys2Proof.Machine.execVidx o s
  | .vsow o => Sys2Proof.Machine.execVsow o s
  | .vredsum o => Sys2Proof.Machine.execVredsum o s
  | .vredosum o => Sys2Proof.Machine.execVredosum o s
  | .vredmin o => Sys2Proof.Machine.execVredmin o s
  | .vredmax o => Sys2Proof.Machine.execVredmax o s
  | .vredand o => Sys2Proof.Machine.execVredand o s
  | .vredor o => Sys2Proof.Machine.execVredor o s
  | .vscansum o => Sys2Proof.Machine.execVscansum o s
  | .vscanmin o => Sys2Proof.Machine.execVscanmin o s
  | .vscanmax o => Sys2Proof.Machine.execVscanmax o s
  | .vgather o => Sys2Proof.Machine.execVgather o s
  | .vslideup o => Sys2Proof.Machine.execVslideup o s
  | .vslidedn o => Sys2Proof.Machine.execVslidedn o s
  | .vcompress o => Sys2Proof.Machine.execVcompress o s
  | .vcidx o => Sys2Proof.Machine.execVcidx o s
  | .mand d a b => Sys2Proof.Machine.execMand d a b s
  | .mor d a b => Sys2Proof.Machine.execMor d a b s
  | .mxor d a b => Sys2Proof.Machine.execMxor d a b s
  | .mandn d a b => Sys2Proof.Machine.execMandn d a b s
  | .mnot d a => Sys2Proof.Machine.execMnot d a s
  | .mpopc d a => Sys2Proof.Machine.execMpopc d a s
  | .mfirst d a => Sys2Proof.Machine.execMfirst d a s
  | .mfromv d a => Sys2Proof.Machine.execMfromv d a s
  | .msetvl d a => Sys2Proof.Machine.execMsetvl d a s
  | .mclr d => Sys2Proof.Machine.execMclr d s
  | .vld o => Sys2Proof.Machine.execVld o s
  | .vlds o => Sys2Proof.Machine.execVlds o s
  | .vldx o => Sys2Proof.Machine.execVldx o s
  | .vldseg o n => Sys2Proof.Machine.execVldseg o n s
  | .vldff o => Sys2Proof.Machine.execVldff o s
  | .vst o => Sys2Proof.Machine.execVst o s
  | .vsts o => Sys2Proof.Machine.execVsts o s
  | .vstx o => Sys2Proof.Machine.execVstx o s
  | .vstseg o n => Sys2Proof.Machine.execVstseg o n s
  | .vaadd o => Sys2Proof.Machine.execVaadd o s
  | .vamin o => Sys2Proof.Machine.execVamin o s
  | .vamax o => Sys2Proof.Machine.execVamax o s
  | .vaor o => Sys2Proof.Machine.execVaor o s
  | .vxlate o => Sys2Proof.Machine.execVxlate o s
  | .vxlateff o => Sys2Proof.Machine.execVxlateff o s
  | .vissue a c fm masked mr => Sys2Proof.Machine.execVissue a c fm masked mr s
  | .vallred o => Sys2Proof.Machine.execVallred o s
  | .vredscat o => Sys2Proof.Machine.execVredscat o s
  | .vallgath o => Sys2Proof.Machine.execVallgath o s
  | .vbcast o => Sys2Proof.Machine.execVbcast o s
  | .vall2all o => Sys2Proof.Machine.execVall2all o s
  | .gset d a b => Sys2Proof.Machine.execGset d a b s
  | .grank d a => Sys2Proof.Machine.execGrank d a s
  | .gsize d a => Sys2Proof.Machine.execGsize d a s
  | .mloadw a t => Sys2Proof.Machine.execMloadw a t s
  | .mstream x a b c => Sys2Proof.Machine.execMstream x a b c s
  | .mzero x b c => Sys2Proof.Machine.execMzero x b c s
  | .mread x d b y => Sys2Proof.Machine.execMread x d b y s
  | .mreadPair x d b => Sys2Proof.Machine.execMreadPair x d b s
  | .mwrite x a b t => Sys2Proof.Machine.execMwrite x a b t s
  | .runAheadFetch g va => Sys2Proof.Machine.execRunAheadFetch g va s
  | .chunkCommit g => Sys2Proof.Machine.execChunkCommit g s
  | .soleGrant pkg => Sys2Proof.Machine.execSoleGrant pkg s
  | .vectorQueueExecute g => Sys2Proof.Machine.execVectorQueueExecute g s
  | .quantumExpiry g => Sys2Proof.Machine.execQuantumExpiry g s
  | .coreResume g => Sys2Proof.Machine.execCoreResume g s
  | .contextRefillDone g => Sys2Proof.Machine.execContextRefillDone g s
  | .pendingRegisterCompletion who r val bad => Sys2Proof.Machine.execPendingRegisterCompletion who r val bad s
  | .remoteLoadAtHome who r segs signed ea tenant => Sys2Proof.Machine.execRemoteLoadAtHome who r segs signed ea tenant s
  | .remoteWriteAtHome who pa bytes val q => Sys2Proof.Machine.execRemoteWriteAtHome who pa bytes val q s
  | .amoAtHome who r pa f dbl op cmp ea q => Sys2Proof.Machine.execAmoAtHome who r pa f dbl op cmp ea q s
  | .vamoUpdateAtHome who id pa f t val rm seed sbase idx q => Sys2Proof.Machine.execVamoUpdateAtHome who id pa f t val rm seed sbase idx q s
  | .tokenSnapshot who => Sys2Proof.Machine.execTokenSnapshot who s
  | .tokenRegistration who => Sys2Proof.Machine.execTokenRegistration who s
  | .tokenArmAtHome who pa op => Sys2Proof.Machine.execTokenArmAtHome who pa op s
  | .tokenSignalAtHome who pa amount => Sys2Proof.Machine.execTokenSignalAtHome who pa amount s
  | .tokenRaiseAtHome who pa amount => Sys2Proof.Machine.execTokenRaiseAtHome who pa amount s
  | .waiterWake who => Sys2Proof.Machine.execWaiterWake who s
  | .tokenRepoll who => Sys2Proof.Machine.execTokenRepoll who s
  | .fenceProbeEcho who r pkg bit => Sys2Proof.Machine.execFenceProbeEcho who r pkg bit s
  | .fabricFailureTimeout n => Sys2Proof.Machine.execFabricFailureTimeout n s
  | .futureLoadAtHome who r pa q => Sys2Proof.Machine.execFutureLoadAtHome who r pa q s
  | .futureStoreAtHome who pa q => Sys2Proof.Machine.execFutureStoreAtHome who pa q s
  | .copyStart cl id => Sys2Proof.Machine.execCopyStart cl id s
  | .copyLockTimeout g => Sys2Proof.Machine.execCopyLockTimeout g s
  | .copyFaultEnd cl id => Sys2Proof.Machine.execCopyFaultEnd cl id s
  | .copyCompletion cl id => Sys2Proof.Machine.execCopyCompletion cl id s
  | .clipMessageRetry cl id => Sys2Proof.Machine.execClipMessageRetry cl id s
  | .elementGroupArrival cl id grp => Sys2Proof.Machine.execElementGroupArrival cl id grp s
  | .registerCopyDelivery cl id => Sys2Proof.Machine.execRegisterCopyDelivery cl id s
  | .xbswapRendezvous cl id => Sys2Proof.Machine.execXbswapRendezvous cl id s
  | .jobGrant cl => Sys2Proof.Machine.execJobGrant cl s
  | .planeFillComplete cl => Sys2Proof.Machine.execPlaneFillComplete cl s
  | .jobStart cl => Sys2Proof.Machine.execJobStart cl s
  | .rowUpdate cl => Sys2Proof.Machine.execRowUpdate cl s
  | .jobEnd cl => Sys2Proof.Machine.execJobEnd cl s
  | .zeroWriteRow cl => Sys2Proof.Machine.execZeroWriteRow cl s
  | .granaryRefresh die bank => Sys2Proof.Machine.execGranaryRefresh die bank s
  | .collectivePacket dst p => Sys2Proof.Machine.execCollectivePacket dst p s
  | .collectiveRetry dst p => Sys2Proof.Machine.execCollectiveRetry dst p s
  | .collectiveMerge g id => Sys2Proof.Machine.execCollectiveMerge g id s
  | .mailboxArrival dst m who r tenant => Sys2Proof.Machine.execMailboxArrival dst m who r tenant s
  | .spawnRequest q => Sys2Proof.Machine.execSpawnRequest q s
  | .quiescenceWatchdog g => Sys2Proof.Machine.execQuiescenceWatchdog g s
  | .pageWalk g asid va => Sys2Proof.Machine.execPageWalk g asid va s
  | .tlbinvTenant pkg t pa => Sys2Proof.Machine.execTlbinvTenant pkg t pa s
  | .tlbinvGrexa pkg pa => Sys2Proof.Machine.execTlbinvGrexa pkg pa s
  | .tlbinvComplete pkg => Sys2Proof.Machine.execTlbinvComplete pkg s
  | .qdoor pkg t q val => Sys2Proof.Machine.execQdoor pkg t q val s
  | .launchTokenFiring pkg t q => Sys2Proof.Machine.execLaunchTokenFiring pkg t q s
  | .launchEntryRead pkg t q => Sys2Proof.Machine.execLaunchEntryRead pkg t q s
  | .afterTokenEligible pkg t q => Sys2Proof.Machine.execAfterTokenEligible pkg t q s
  | .instanceBind pkg t => Sys2Proof.Machine.execInstanceBind pkg t s
  | .slotEvict g slot => Sys2Proof.Machine.execSlotEvict g slot s
  | .slotRestore g slot => Sys2Proof.Machine.execSlotRestore g slot s
  | .slotRelease g slot => Sys2Proof.Machine.execSlotRelease g slot s
  | .ctxbaseWrite g val => Sys2Proof.Machine.execCtxbaseWrite g val s
  | .l2cfgWrite cl val => Sys2Proof.Machine.execL2cfgWrite cl val s
  | .launchQueueConfigWrite pkg t q off val => Sys2Proof.Machine.execLaunchQueueConfigWrite pkg t q off val s
  | .faultQueueConfigWrite pkg t val => Sys2Proof.Machine.execFaultQueueConfigWrite pkg t val s
  | .mmioRegisterWrite place val => Sys2Proof.Machine.execMmioRegisterWrite place val s
  | .tenantSwitch cl t ld => Sys2Proof.Machine.execTenantSwitch cl t ld s
  | .tenantSwitchAbandon cl => Sys2Proof.Machine.execTenantSwitchAbandon cl s
  | .tenantReset pkg t => Sys2Proof.Machine.execTenantReset pkg t s
  | .hostBar2Write pkg t off bytes val => Sys2Proof.Machine.execHostBar2Write pkg t off bytes val s
  | .hostBar2Read pkg t place bytes => Sys2Proof.Machine.execHostBar2Read pkg t place bytes s
  | .hostAtomicOp pkg t off op bytes val cmp => Sys2Proof.Machine.execHostAtomicOp pkg t off op bytes val cmp s
  | .hsigv pkg t val => Sys2Proof.Machine.execHsigv pkg t val s
  | .cxlLinkFailure pkg port => Sys2Proof.Machine.execCxlLinkFailure pkg port s
  | .cxlWriteAckLost pkg pa => Sys2Proof.Machine.execCxlWriteAckLost pkg pa s
  | .fabricPortFailure pkg port => Sys2Proof.Machine.execFabricPortFailure pkg port s
  | .parkClockTick pkg => Sys2Proof.Machine.execParkClockTick pkg s
  | .nearDwellExpiry pkg e => Sys2Proof.Machine.execNearDwellExpiry pkg e s
  | .farDwellExpiry pkg e => Sys2Proof.Machine.execFarDwellExpiry pkg e s
  | .blockMoveRegistration pkg e => Sys2Proof.Machine.execBlockMoveRegistration pkg e s
  | .blockMoveCompletion pkg e => Sys2Proof.Machine.execBlockMoveCompletion pkg e s
  | .contextMoveCompletion pkg e => Sys2Proof.Machine.execContextMoveCompletion pkg e s
  | .wakeWrite pa val => Sys2Proof.Machine.execWakeWrite pa val s
  | .parkResume pkg e => Sys2Proof.Machine.execParkResume pkg e s
  | .parkWaitSlotPlace pkg t => Sys2Proof.Machine.execParkWaitSlotPlace pkg t s
  | .fwreq pkg t pa => Sys2Proof.Machine.execFwreq pkg t pa s
  | .grexaRefill pkg => Sys2Proof.Machine.execGrexaRefill pkg s
  | .grexaInsert pkg => Sys2Proof.Machine.execGrexaInsert pkg s
  | .grexaDrop pkg => Sys2Proof.Machine.execGrexaDrop pkg s
  | .blog2Write pkg t val => Sys2Proof.Machine.execBlog2Write pkg t val s
  | .patrolScrub pa => Sys2Proof.Machine.execPatrolScrub pa s
  | .snaptrig pkg => Sys2Proof.Machine.execSnaptrig pkg s
  | .snapshotLatch pkg => Sys2Proof.Machine.execSnapshotLatch pkg s
  | .coreReset g => Sys2Proof.Machine.execCoreReset g s
  | .clusterReset cl => Sys2Proof.Machine.execClusterReset cl s
  | .dieReset die => Sys2Proof.Machine.execDieReset die s
  | .warmModuleReset pkg => Sys2Proof.Machine.execWarmModuleReset pkg s
  | .coldModuleReset pkg => Sys2Proof.Machine.execColdModuleReset pkg s
  | .attestationRequest pkg tenant nonce => Sys2Proof.Machine.execAttestationRequest pkg tenant nonce s
  | .thermalThrottle pkg => Sys2Proof.Machine.execThermalThrottle pkg s
  | .thermalShutdown pkg => Sys2Proof.Machine.execThermalShutdown pkg s
  | .powerCapSet pkg watts => Sys2Proof.Machine.execPowerCapSet pkg watts s
  | .grexaImageStage pkg im => Sys2Proof.Machine.execGrexaImageStage pkg im s
  | .illegalInstruction head tail => Sys2Proof.Machine.execIllegalInstruction head tail s
  | .granaryRefreshEnd die bank => Sys2Proof.Machine.execGranaryRefreshEnd die bank s
  | .spillComplete g => Sys2Proof.Machine.execSpillComplete g s
  | .postedWriteAcknowledged who pkg ack => Sys2Proof.Machine.execPostedWriteAcknowledged who pkg ack s
  | .grexaReplyRetry pkg => Sys2Proof.Machine.execGrexaReplyRetry pkg s
  | .distributorRegistrationRetry pkg t q => Sys2Proof.Machine.execDistributorRegistrationRetry pkg t q s
  | .dataPrefetch g va outcome => Sys2Proof.Machine.execDataPrefetch g va outcome s
  | .tenantConfiguration pkg t cfg => Sys2Proof.Machine.execTenantConfiguration pkg t cfg s
  | .i3cDynamicAddress pkg addr => Sys2Proof.Machine.execI3cDynamicAddress pkg addr s

end Sys2Proof.Machine
end

