-- ==== Sys2Proof/Machine/Fetch.lean ====
section
/-!
DEFINITION. What a core does before an instruction executes: the loop's pending advance, the chunk's end, the quantum,
the faults of a resumed state, the fetch of its head (R15, R21, R22, R75, R205, R252, R276).
-/

namespace Sys2Proof.Machine

/-- Core cycles pass at each step: one and a free number more (R76, R221, R377, R382; DESIGN CHOICE, log 6). -/
def State.tick (s : State) : State := s.pass (1 + Config.extraCycles s.elapsed)

/-- The package of a core is powered and runs a verified image (R374, R377). -/
def State.powered (s : State) (g : CoreId) : Bool := (s.pkg (pkgOf g)).live

/-- The core has a running coroutine and is not stalled. -/
def State.canIssue (s : State) (g : CoreId) : Bool :=
  (s.core g).running.isSome && !s.stalled.contains g && s.powered g

/-- The next core after the one in focus that can issue, in ascending order and wrapping; the one in focus where none can. -/
def State.nextCore (s : State) : CoreId :=
  match (s.cores.find? fun x => s.focus < x.1 && s.canIssue x.1), (s.cores.find? fun x => s.canIssue x.1) with
  | some x, _ => x.1
  | none, some x => x.1
  | none, none => s.focus

/-- The address at which the fetch of the line at the PC must wait for the walker (R305). -/
def State.fetchWait (s : State) : Option Word :=
  let base := lineBase s.co.pc
  match s.heldLine s.focus s.co.mode base with
  | some _ => none
  | none => s.walkWait s.space 2 base 64

/-- What the core does instead of fetching: nothing where it has no coroutine, the merge of a finished collective, the answer
to an await's snapshot, the loop's advance once its registers are there, the end of a full chunk, the wait for the sole grant, an eviction that
waits for this boundary (R203), the quantum's expiry, the trap of a broken loop state, a wait for the walker. -/
def State.before (s : State) : Option Out :=
  let c := s.cur
  if c.running.isNone || !s.powered s.focus then some (.next s)
  else if c.mergeDue.isSome then some (.next (s.mergeColl s.focus (c.mergeDue.getD 0)))
  else if (c.slot (c.running.getD 0)).wait != .nothing then some (.next s.stall)
  else if c.co.lpend then
    some (.next (if !c.co.loopFree || s.loopMeets then s.loopWait s
      else s.setCo (c.co.loopAdvance s.succ 0 (lDepth c.co.lstate))))
  else if c.chunk.ended then some (.next s.cutChunk)
  else if c.ext.sole && (s.pkg (pkgOf s.focus)).sole != some s.focus then some (.next s.stall)
  else if c.evicting && c.co.cont == 0 && !c.ext.ended then some (.next s.stall)
  else if c.co.cont == 0 && !c.ext.ended && c.co.quantum != 0 && c.co.quantum.toNat ≤ c.ext.chunks then some (execQuantumExpiry s.focus s)
  else if c.co.lbad then
    some (.next (if s.trapReady then (s.setCo { c.co with lbad := false }).takeTrap ⟨1, c.co.lstate, 0, none⟩ c.co.pc
      else s.notYet s))
  else match s.fetchWait with
    | some va => some (.next (s.awaitWalk c.co.asid va))
    | none => none

/-- What a fetch gives: a head with its tail and what the decoder makes of it, or a trap. -/
inductive Fetched where
  | head (h : BitVec 16) (t : Word) (i : Except Reject Instr)
  | trap (t : Trap)

/-- The head at the PC (R15, R18 to R22): a misaligned PC is cause 3, an unmapped line 4, an ill-formed line 2, a failing one 8
(DEDUCED, log 20). A PC that is no head though no checked transfer has set it, one edited in a saved context or one whose line has
changed, takes cause 3 too, with epc and etval the PC (DESIGN CHOICE, log 61). -/
def State.fetch (s : State) : Fetched :=
  let pc := s.co.pc
  let base := lineBase pc
  if pc.toNat % 64 = 0 ∨ pc.toNat % 2 = 1 then .trap ⟨3, pc, 0, none⟩
  else match s.lineBytes s.focus s.co.mode base with
    | .error m => .trap ⟨m.cause .fetch, base, 0, m.bad⟩
    | .ok b =>
      if !lineWf b then .trap ⟨2, base, 0, none⟩
      else if lineCount b < pc.toNat % 64 / 2 then .trap ⟨3, pc, 0, none⟩
      else .head (lineHead b (pc.toNat % 64 / 2)) (lineTail b (pc.toNat % 64 / 2)) (decodeAt b (pc.toNat % 64 / 2))

/-- A fetch of the line at a base noted in the chunk (R307), with the TLB misses of one that is not held, and the errors corrected in its bytes
(R76, R365). -/
def State.noteFetch (s : State) (base : Word) : State :=
  match s.heldLine s.focus s.co.mode base with
  | none =>
    let t := s.notePages .fetch base 64
    match s.lineSegs s.focus s.co.mode base with
    | .ok segs => t.noteRuns (segs.map fun g => (g.pa, g.len))
    | .error _ => t
  | some _ =>
    let k := s.cur.chunk
    let page := (s.co.asid, base.toNat / 65536)
    if isAlias base || k.pages.contains page then s else s.setChunk { k with pages := k.pages ++ [page] }

/-- User mode may fetch the line at a base (R302). -/
def State.lineUser (s : State) (base : Word) : Bool :=
  match s.heldLine s.focus s.co.mode base with
  | some l => l.user
  | none => match s.lineSegs s.focus s.co.mode base with
    | .ok segs => segs.all (·.u)
    | .error _ => false

/-- The line of the PC kept in the core while its heads execute (R12, R24); the head and tail are not kept. -/
def State.withLine (s : State) (_ : BitVec 16) (_ : Word) : State :=
  let pc := s.co.pc
  let base := lineBase pc
  let t := s.noteFetch base
  let c := t.cur
  match s.lineBytes s.focus s.co.mode base with
  | .ok b =>
    t.setCur { c with
      co := { c.co with next := lineSucc b pc }
      line := some { va := base, asid := c.co.asid, user := s.lineUser base, bytes := some b }
      ahead := c.ahead.filter (·.va != base) }
  | .error _ => s

/-- Save areas for the core in focus where it has none that are valid: 85 MiB at local address 0x100_0000, for the
tenant of its coroutine (R381, DESIGN CHOICE, log 3). -/
def State.withSaves (s : State) : State :=
  let g := s.focus
  if s.savesValid g then s
  else
    let s1 := s.setCore g { s.core g with ctxbase := BitVec.ofNat 58 (pkgOf g * 2 ^ 46 + 0x1000000) }
    s1.setCluster (clusterOf g) { s1.cluster (clusterOf g) with tenant := s.co.tenant }

/-- The line put where the core in focus fetches next (DESIGN CHOICE, log 3): at pod physical address 0x1_0000 of its package, which the
alias window shows at 0xFC00_0000_0001_0000 to a running coroutine in slot 0. -/
def placeLine (s : State) (line : List Byte) : State :=
  let g := s.focus
  let c := s.core g
  let p := pkgOf g
  let pa := p * 2 ^ 46 + 0x10000
  let t := c.co.tenant.toNat
  let co := { c.co with pc := BitVec.ofNat 64 (0xFC00000000000000 + pa + 2), lpend := false, lbad := false, lfrz := false, lstate := 0, cont := 0 }
  let x := s.tenant p t
  let k := c.running.getD 0
  let s1 := s.setTenant p t { x with cfg := { x.cfg with windows := (p * 2 ^ 46, 0x10000000) :: x.cfg.windows } }
  let s2 := s1.setCore g { c.setSlot k { c.slot k with st := .running, wait := .nothing } with
    co := co, running := some k, chunk := Chunk.fresh co, waiting := none, line := none, ahead := [], evicting := false,
    ext := { c.ext with sole := false, chunks := 0, fence := none, ended := false } }
  let s3 := { s2.setPkg p { s2.pkg p with on := true, recovery := false } with mem := memPut s2.mem pa line, agenda := [], stalled := [], burst := 0 }
  (s3.heal pa 64).withSaves

end Sys2Proof.Machine
end

