-- ==== Sys2Proof/Machine/Perform.lean ====
section
/-!
DEFINITION. An event that is under way is performed: the meaning of its constructor of Instr.
-/

namespace Sys2Proof.Machine

/-- The event performed, by the meaning that exec gives its constructor. -/
def performed (e : Event) (s : State) : Host.Outcome State Fault Refusal :=
  match e with
  | .runAheadFetch g va => execRunAheadFetch g va s
  | .chunkCommit g => execChunkCommit g s
  | .soleGrant pkg => execSoleGrant pkg s
  | .vectorQueueExecute g => execVectorQueueExecute g s
  | .quantumExpiry g => execQuantumExpiry g s
  | .coreResume g => execCoreResume g s
  | .contextRefillDone g => execContextRefillDone g s
  | .pendingRegisterCompletion who r val bad => execPendingRegisterCompletion who r val bad s
  | .remoteLoadAtHome who r segs signed ea tenant => execRemoteLoadAtHome who r segs signed ea tenant s
  | .remoteWriteAtHome who pa bytes val q => execRemoteWriteAtHome who pa bytes val q s
  | .amoAtHome who r pa f dbl op cmp ea q => execAmoAtHome who r pa f dbl op cmp ea q s
  | .vamoUpdateAtHome who id pa f t val rm seed sbase idx q => execVamoUpdateAtHome who id pa f t val rm seed sbase idx q s
  | .tokenSnapshot who => execTokenSnapshot who s
  | .tokenRegistration who => execTokenRegistration who s
  | .tokenArmAtHome who pa op => execTokenArmAtHome who pa op s
  | .tokenSignalAtHome who pa amount => execTokenSignalAtHome who pa amount s
  | .tokenRaiseAtHome who pa amount => execTokenRaiseAtHome who pa amount s
  | .waiterWake who => execWaiterWake who s
  | .tokenRepoll who => execTokenRepoll who s
  | .fenceProbeEcho who r pkg bit => execFenceProbeEcho who r pkg bit s
  | .fabricFailureTimeout n => execFabricFailureTimeout n s
  | .futureLoadAtHome who r pa q => execFutureLoadAtHome who r pa q s
  | .futureStoreAtHome who pa q => execFutureStoreAtHome who pa q s
  | .copyStart cl id => execCopyStart cl id s
  | .copyLockTimeout g => execCopyLockTimeout g s
  | .copyFaultEnd cl id => execCopyFaultEnd cl id s
  | .copyCompletion cl id => execCopyCompletion cl id s
  | .clipMessageRetry cl id => execClipMessageRetry cl id s
  | .elementGroupArrival cl id grp => execElementGroupArrival cl id grp s
  | .registerCopyDelivery cl id => execRegisterCopyDelivery cl id s
  | .xbswapRendezvous cl id => execXbswapRendezvous cl id s
  | .jobGrant cl => execJobGrant cl s
  | .planeFillComplete cl => execPlaneFillComplete cl s
  | .jobStart cl => execJobStart cl s
  | .rowUpdate cl => execRowUpdate cl s
  | .jobEnd cl => execJobEnd cl s
  | .zeroWriteRow cl => execZeroWriteRow cl s
  | .granaryRefresh die bank => execGranaryRefresh die bank s
  | .collectivePacket dst p => execCollectivePacket dst p s
  | .collectiveRetry dst p => execCollectiveRetry dst p s
  | .collectiveMerge g id => execCollectiveMerge g id s
  | .mailboxArrival dst m who r tenant => execMailboxArrival dst m who r tenant s
  | .spawnRequest q => execSpawnRequest q s
  | .quiescenceWatchdog g => execQuiescenceWatchdog g s
  | .pageWalk g asid va => execPageWalk g asid va s
  | .tlbinvTenant pkg t pa => execTlbinvTenant pkg t pa s
  | .tlbinvGrexa pkg pa => execTlbinvGrexa pkg pa s
  | .tlbinvComplete pkg => execTlbinvComplete pkg s
  | .qdoor pkg t q val => execQdoor pkg t q val s
  | .launchTokenFiring pkg t q => execLaunchTokenFiring pkg t q s
  | .launchEntryRead pkg t q => execLaunchEntryRead pkg t q s
  | .afterTokenEligible pkg t q => execAfterTokenEligible pkg t q s
  | .instanceBind pkg t => execInstanceBind pkg t s
  | .slotEvict g slot => execSlotEvict g slot s
  | .slotRestore g slot => execSlotRestore g slot s
  | .slotRelease g slot => execSlotRelease g slot s
  | .ctxbaseWrite g val => execCtxbaseWrite g val s
  | .l2cfgWrite cl val => execL2cfgWrite cl val s
  | .launchQueueConfigWrite pkg t q off val => execLaunchQueueConfigWrite pkg t q off val s
  | .faultQueueConfigWrite pkg t val => execFaultQueueConfigWrite pkg t val s
  | .mmioRegisterWrite place val => execMmioRegisterWrite place val s
  | .tenantSwitch cl t ld => execTenantSwitch cl t ld s
  | .tenantSwitchAbandon cl => execTenantSwitchAbandon cl s
  | .tenantReset pkg t => execTenantReset pkg t s
  | .hostBar2Write pkg t off bytes val => execHostBar2Write pkg t off bytes val s
  | .hostBar2Read pkg t place bytes => execHostBar2Read pkg t place bytes s
  | .hostAtomicOp pkg t off op bytes val cmp => execHostAtomicOp pkg t off op bytes val cmp s
  | .hsigv pkg t val => execHsigv pkg t val s
  | .cxlLinkFailure pkg port => execCxlLinkFailure pkg port s
  | .cxlWriteAckLost pkg pa => execCxlWriteAckLost pkg pa s
  | .fabricPortFailure pkg port => execFabricPortFailure pkg port s
  | .parkClockTick pkg => execParkClockTick pkg s
  | .nearDwellExpiry pkg e => execNearDwellExpiry pkg e s
  | .farDwellExpiry pkg e => execFarDwellExpiry pkg e s
  | .blockMoveRegistration pkg e => execBlockMoveRegistration pkg e s
  | .blockMoveCompletion pkg e => execBlockMoveCompletion pkg e s
  | .contextMoveCompletion pkg e => execContextMoveCompletion pkg e s
  | .wakeWrite pa val => execWakeWrite pa val s
  | .parkResume pkg e => execParkResume pkg e s
  | .parkWaitSlotPlace pkg t => execParkWaitSlotPlace pkg t s
  | .fwreq pkg t pa => execFwreq pkg t pa s
  | .grexaRefill pkg => execGrexaRefill pkg s
  | .grexaInsert pkg => execGrexaInsert pkg s
  | .grexaDrop pkg => execGrexaDrop pkg s
  | .blog2Write pkg t val => execBlog2Write pkg t val s
  | .patrolScrub pa => execPatrolScrub pa s
  | .snaptrig pkg => execSnaptrig pkg s
  | .snapshotLatch pkg => execSnapshotLatch pkg s
  | .coreReset g => execCoreReset g s
  | .clusterReset cl => execClusterReset cl s
  | .dieReset die => execDieReset die s
  | .warmModuleReset pkg => execWarmModuleReset pkg s
  | .coldModuleReset pkg => execColdModuleReset pkg s
  | .attestationRequest pkg tenant nonce => execAttestationRequest pkg tenant nonce s
  | .thermalThrottle pkg => execThermalThrottle pkg s
  | .thermalShutdown pkg => execThermalShutdown pkg s
  | .powerCapSet pkg watts => execPowerCapSet pkg watts s
  | .grexaImageStage pkg im => execGrexaImageStage pkg im s
  | .illegalInstruction head tail => execIllegalInstruction head tail s
  | .granaryRefreshEnd die bank => execGranaryRefreshEnd die bank s
  | .spillComplete g => execSpillComplete g s
  | .postedWriteAcknowledged who pkg ack => execPostedWriteAcknowledged who pkg ack s
  | .grexaReplyRetry pkg => execGrexaReplyRetry pkg s
  | .distributorRegistrationRetry pkg t q => execDistributorRegistrationRetry pkg t q s
  | .dataPrefetch g va outcome => execDataPrefetch g va outcome s
  | .tenantConfiguration pkg t cfg => execTenantConfiguration pkg t cfg s
  | .i3cDynamicAddress pkg addr => execI3cDynamicAddress pkg addr s

/-- The event performed: not where it is work of a unit of a package that is off or in recovery, whose units do nothing (R374, R377); tried
again later where the fabric does not carry its request (R338). -/
def perform (e : Event) (s : State) : Host.Outcome State Fault Refusal :=
  if e.unit.any fun p => !(s.pkg p).live then .next s
  else if s.cutOff e then s.again e
  else performed e s

end Sys2Proof.Machine
end

