-- ==== Sys2Proof/Machine/Step.lean ====
section
/-!
DEFINITION. One step of the pod: the agenda's next choice, else the core in focus issues, 8 times in a row at most, else an
event that is under way is performed, else another core issues (DESIGN CHOICE, log 4). And an instruction placed where the next step fetches.
-/

namespace Sys2Proof.Machine

/-- The answer of an instruction with what its loop's advance makes of it (R105). -/
def State.withAdvance (s : State) (o : Host.Outcome State Fault Refusal) : Host.Outcome State Fault Refusal :=
  match o with
  | .next t => .next (s.headDone t)
  | .fault e => .fault e
  | .refused r => .refused r

/-- The core in focus fetches, decodes and executes one instruction, or does what comes before it (Fetch.lean). -/
def issueStep (s : State) : Host.Outcome State Fault Refusal :=
  match s.before with
  | some out => out
  | none =>
    match s.fetch with
    | .trap t => .next ((s.noteFetch (lineBase s.co.pc)).takeTrap t s.co.pc)
    | .head h t (.ok i) => (s.withLine h t).withAdvance (exec i (s.withLine h t))
    | .head h t (.error _) => execIllegalInstruction h t (s.withLine h t)

/-- Where the event stands that goes before the one at place n: the first of its streams, and before that the first of that one's
(R220, R335, R339). -/
def State.firstOf (s : State) : Nat → Event → Nat → Nat
  | 0, _, n => n
  | fuel + 1, e, n =>
    match s.flight.findIdx? (s.sameStream e ·) with
    | some k => if k < n then s.firstOf fuel (s.flight.getD k e) k else n
    | none => n

/-- One step. -/
def step (s : State) : Host.Outcome State Fault Refusal :=
  let s := s.tick
  match s.agenda with
  | .core g :: r => issueStep { s with agenda := r, focus := g }
  | .flight n :: r =>
    match s.flight[n]? with
    | some e =>
      let k := s.firstOf (n + 1) e n
      perform (s.flight.getD k e) { s with agenda := r, flight := s.flight.eraseIdx k, stalled := [] }
    | none => .next { s with agenda := r }
  | .event e :: r =>
    if s.flight.any (s.sameStream e ·) then .next { s with agenda := r, flight := s.flight ++ [e] }
    else perform e { s with agenda := r, stalled := [] }
  | .upset u :: r => .next ({ s with agenda := r, stalled := [] }.upset u)
  | .measure p c w :: r => .next ({ s with agenda := r }.measured p c w)
  | .raiseFuse p v :: r => .next ({ s with agenda := r }.fuseRaised p v)
  | [] =>
    if s.canIssue s.focus && s.burst < 8 then issueStep { s with burst := s.burst + 1 }
    else
    let s : State := if s.burst < 8 then s else { s with stalled := [] }
    match s.flight with
      | e :: r => perform e { s with flight := r, stalled := [], focus := s.nextCore, burst := 0 }
      | [] =>
        if s.canIssue s.nextCore then issueStep { s with focus := s.nextCore, burst := 0 }
        else .next s

/-- The state with an instruction, its head in the low 16 bits of w and its tail above, where the core in focus fetches
its next one: in the alias window, inside a window of the tenant of a running coroutine (DESIGN CHOICE, log 3). -/
def State.withFetchWord (s : State) (nbits w : Nat) : State :=
  placeLine s (tableLine (w % 2 ^ nbits))

end Sys2Proof.Machine
end

