-- ==== Sys2Proof/Safety.lean ====
section
/-!
DEFINITION. What counts as a safe run, and the conditions under which statements say that an instruction completes: each is
spelled out over the state and the operands alone.
-/

namespace Sys2Proof.Machine

/-- k steps from a state all answer a next state. -/
def SafeFor : Nat → State → Prop
  | 0, _ => True
  | k + 1, s => ∃ t, step s = .next t ∧ SafeFor k t

/-- Nothing keeps an instruction that reads rs and writes ws from issuing: no register of them is pending or is to be completed
by the chunk's own commit, none that is read holds the mark of a failed load or an error (R84, R97, R99, R367). -/
def State.Free (s : State) (rs ws : List Reg) : Prop :=
  (∀ r ∈ rs ++ ws, s.co.isPend r = false ∧ s.cur.chunk.owes r = false) ∧
  ∀ r ∈ rs, r ≠ 0 → s.co.mark r = none ∧ (0, r.toNat) ∉ s.ext.badRegs

/-- Nothing holds the commit of the chunk of the core in focus: no earlier chunk waits, its vector queue is empty, it has loaded
from and stored to no kernel MMIO register, and no other core has the sole grant (R118, R247, R252, R299). -/
def State.MayCommit (s : State) : Prop :=
  s.cur.waiting = none ∧ s.cur.vq = [] ∧ s.cur.chunk.mmio = [] ∧ s.cur.chunk.mloads = [] ∧
  ∀ g, (s.pkg (pkgOf s.focus)).sole = some g → g = s.focus

/-- The commit of a chunk writes its bytes, completes its atomics, sends what it has posted, and does nothing else to memory: the chunk has
stored to no kernel MMIO register, no atomic of it has met an error, and no wake watch is set on a doubleword that it writes (R247,
R299, R350, R366). -/
def State.PlainChunk (s : State) (k : Chunk) : Prop :=
  k.mmio = [] ∧ k.errors = [] ∧ ∀ w ∈ k.whole, ∀ x ∈ (s.pkg (paPkg w.1)).watches, x.1 ≠ w.1

/-- No vector instruction is queued, nothing that one touches is pending, and no register holds an error (R118, R276, R367). -/
def State.VectorFree (s : State) : Prop :=
  s.cur.vq = [] ∧ s.ext.vpend = [] ∧ s.ext.cpend = [] ∧ s.ext.mpend = 0 ∧ s.ext.badRegs = []

/-- The state once the instruction that has made s' of s is complete and its chunk has committed (R85, R247, R248). -/
def State.ended (s s' : State) : State := s'.retire.commitNow s.focus

/-- A byte as the running coroutine sees it: the store of its own chunks, else committed memory (R85, R247). -/
def State.seen (s : State) (a : Pa) : Byte := s.cur.byte s.mem a

/-- The canonical form of memory, which every operation keeps. -/
def State.Inv (s : State) : Prop := Memory.wf s.mem = true

/-- The same form of the vector registers, wherever a coroutine's registers stand: in its core, at the start of its chunks, in
a slot, beside the save area of a switch. -/
def State.VInv (s : State) : Prop :=
  (∀ x ∈ s.cores, Memory.wf x.2.co.v = true ∧ Memory.wf x.2.chunk.start.v = true ∧
    (∀ k ∈ x.2.waiting, Memory.wf k.start.v = true) ∧ ∀ y ∈ x.2.slots, Memory.wf y.2.co.v = true) ∧
  ∀ x ∈ s.clusters, ∀ y ∈ x.2.saved, ∀ l ∈ y.2, ∀ z ∈ l.1, Memory.wf z.2.co.v = true

end Sys2Proof.Machine
end

