-- ==== Sys2Proof/Certificates/Slice0/Obligations.lean ====
section
/-!
DEFINITION. The statements about the Lahild G9's model, for the provers. Statements that name several instructions give
a table of their constructors with what the spec says each computes; `Sys2Proof.Claims` holds those tables and the
conditions, all of them over the state and the operands alone.
-/

open Sys2Proof Sys2Proof.Machine

/-! ### Integer arithmetic (R36, R86 to R89) -/

namespace Sys2Proof.Claims

/-- The forms of ALU with two sources, with the table of R86 (R36 for the divisions). -/
def alu : List ((Reg → Reg → Reg → Instr) × (Word → Word → Word)) :=
  [(.add, fun a b => a + b),
   (.sub, fun a b => a - b),
   (.mul, fun a b => a * b),
   (.mulh, fun a b => (a.signExtend 128 * b.signExtend 128).extractLsb' 64 64),
   (.mulhn, fun a b => (a.setWidth 128 * b.setWidth 128).extractLsb' 64 64),
   (.div, fun a b => if b = 0 then BitVec.allOnes 64 else a.sdiv b),
   (.divn, fun a b => if b = 0 then BitVec.allOnes 64 else a / b),
   (.rem, fun a b => if b = 0 then a else a.srem b),
   (.remn, fun a b => if b = 0 then a else a % b),
   (.and, fun a b => a &&& b),
   (.or, fun a b => a ||| b),
   (.xor, fun a b => a ^^^ b),
   (.andn, fun a b => a &&& ~~~b),
   (.shl, fun a b => a <<< (b.extractLsb' 0 6)),
   (.shr, fun a b => a >>> (b.extractLsb' 0 6)),
   (.sra, fun a b => a.sshiftRight' (b.extractLsb' 0 6)),
   (.rol, fun a b => a.rotateLeft (b.extractLsb' 0 6).toNat),
   (.min, fun a b => if b.slt a then b else a),
   (.max, fun a b => if a.slt b then b else a),
   (.minn, fun a b => if b < a then b else a),
   (.maxn, fun a b => if a < b then b else a),
   (.slt, fun a b => if a.slt b then 1 else 0),
   (.sltn, fun a b => if a < b then 1 else 0),
   (.seq, fun a b => if a = b then 1 else 0)]

/-- The forms of ALUI (R87). -/
def alui : List ((Reg → Reg → BitVec 27 → Instr) × (Word → BitVec 27 → Word)) :=
  [(.addi, fun a i => a + i.signExtend 64),
   (.andi, fun a i => a &&& i.signExtend 64),
   (.ori, fun a i => a ||| i.signExtend 64),
   (.xori, fun a i => a ^^^ i.signExtend 64),
   (.slti, fun a i => if a.slt (i.signExtend 64) then 1 else 0),
   (.shli, fun a i => a <<< (i.extractLsb' 0 6)),
   (.shri, fun a i => a >>> (i.extractLsb' 0 6)),
   (.srai, fun a i => a.sshiftRight' (i.extractLsb' 0 6))]

/-- The registers and the flags of a state are those of another but for one register, its pending bit and the place of
the PC in an active loop: what an instruction that only writes d leaves alone. -/
def RegisterOnly (s t : State) (d : Reg) : Prop :=
  (∀ r, r ≠ d → t.rd r = s.rd r) ∧ (∀ a, t.seen a = s.seen a) ∧
  t.co.v = s.co.v ∧ t.co.m = s.co.m ∧ t.co.g = s.co.g ∧ t.co.mode = s.co.mode ∧ t.co.vl = s.co.vl ∧
  t.co.vtype = s.co.vtype ∧ t.co.vstart = s.co.vstart ∧ t.co.istate = s.co.istate ∧ t.co.seed = s.co.seed ∧
  t.co.sbase = s.co.sbase ∧ t.co.lstate = s.co.lstate ∧ t.co.lfrz = s.co.lfrz ∧ t.co.tvec = s.co.tvec ∧ t.co.epc = s.co.epc ∧ t.co.ecause = s.co.ecause ∧
  t.co.etval = s.co.etval ∧ t.co.estatPm = s.co.estatPm ∧ t.co.info = s.co.info ∧ t.co.done = s.co.done ∧
  t.co.quantum = s.co.quantum ∧ t.co.stage = s.co.stage ∧ t.co.cls = s.co.cls ∧ t.co.ceil = s.co.ceil ∧
  t.co.cid = s.co.cid ∧ t.co.asid = s.co.asid ∧ t.co.tenant = s.co.tenant ∧ t.co.grant = s.co.grant ∧
  t.ext = s.ext ∧ t.mem = s.mem ∧ t.clusters = s.clusters ∧ t.dies = s.dies ∧ t.pkgs = s.pkgs ∧
  t.flight = s.flight ∧ ∀ g, g ≠ s.focus → t.core g = s.core g

end Sys2Proof.Claims

/-- R86 with R36: each form of ALU with two sources writes its result to s[D], for all operands, and completes inside its chunk. -/
def Sys2Proof.Claims.aluResults : Prop :=
  ∀ x ∈ Claims.alu, ∀ (d a b : Reg) (s : State), s.Free [a, b] [d] →
    exec (x.1 d a b) s = .next (s.wr d (x.2 (s.rd a) (s.rd b))).retire

/-- R86, R87, R88, R89: the bit counts, the immediate forms, LI and SEL write their results to s[D]. CLZ, CTZ and POPC are
said by what their results mean, 64 for a source of zero where the table says so. -/
def Sys2Proof.Claims.countImmediateSelectResults : Prop :=
  ∀ (d a b c : Reg) (s : State),
    (s.Free [a] [d] → ∃ lz tz pc : Nat,
      exec (.clz d a) s = .next (s.wr d (BitVec.ofNat 64 lz)).retire ∧
      exec (.ctz d a) s = .next (s.wr d (BitVec.ofNat 64 tz)).retire ∧
      exec (.popc d a) s = .next (s.wr d (BitVec.ofNat 64 pc)).retire ∧
      lz ≤ 64 ∧ (∀ i, i < 64 → 64 ≤ i + lz → (s.rd a).getLsbD i = false) ∧ (lz < 64 → (s.rd a).getLsbD (63 - lz) = true) ∧
      tz ≤ 64 ∧ (∀ i, i < tz → (s.rd a).getLsbD i = false) ∧ (tz < 64 → (s.rd a).getLsbD tz = true) ∧
      pc = ((List.range 64).filter (s.rd a).getLsbD).length) ∧
    (s.Free [a] [d] → ∀ x ∈ Claims.alui, ∀ i, exec (x.1 d a i) s = .next (s.wr d (x.2 (s.rd a) i)).retire) ∧
    (s.Free [] [d] → (∀ i, exec (.liW d i) s = .next (s.wr d (i.signExtend 64)).retire) ∧
      ∀ i, exec (.liD d i) s = .next (s.wr d i).retire) ∧
    (s.Free [a, b, c] [d] → exec (.sel d a b c) s = .next (s.wr d (if s.rd c ≠ 0 then s.rd a else s.rd b)).retire)

/-- R86 to R90: the results of the scalar integer instructions. -/
def Obligations.IntegerResults : Prop := Claims.aluResults ∧ Claims.countImmediateSelectResults

/-- R68, R84, R85: the frame of ALU, ALUI, LI and SEL. Outside a loop nothing but s[D] and the PC changes, whatever D
is; a D of 0 leaves s0 reading as zero. -/
def Sys2Proof.Claims.aluFrame : Prop :=
  ∀ (d a b c : Reg) (i : BitVec 27) (j : BitVec 32) (k : Word) (s : State), s.co.looping = false → s.Free [a, b, c] [d] →
    (∀ x ∈ Claims.alu, ∃ t, exec (x.1 d a b) s = .next t ∧ Claims.RegisterOnly s t d ∧ t.co.pc = s.co.next ∧ t.rd 0 = 0 ∧
      t.co.fmode = s.co.fmode) ∧
    (∀ x ∈ Claims.alui, ∃ t, exec (x.1 d a i) s = .next t ∧ Claims.RegisterOnly s t d ∧ t.co.pc = s.co.next ∧ t.rd 0 = 0 ∧
      t.co.fmode = s.co.fmode) ∧
    ∀ n ∈ [Instr.clz d a, .ctz d a, .popc d a, .liW d j, .liD d k, .sel d a b c],
      ∃ t, exec n s = .next t ∧ Claims.RegisterOnly s t d ∧ t.co.pc = s.co.next ∧ t.rd 0 = 0 ∧ t.co.fmode = s.co.fmode

/-! ### Scalar floating point (R39, R46 to R51, R90 to R93) -/

namespace Sys2Proof.Claims

/-- The format that X names (R91). -/
def fmt (dbl : Bool) : Fmt := fmtOf (if dbl then 13 else 12)

/-- The value of a source: all 64 bits for f64, bits [31:0] for f32 (R90). -/
def fv (dbl : Bool) (x : Word) : FV := (fmt dbl).value (if dbl then x.toNat else (x.extractLsb' 0 32).toNat)

/-- The state after a floating-point result: the code in s[D], the flags ORed into fmode, on to the next head. -/
def fdone (s : State) (d : Reg) (r : Nat × BitVec 5) : State :=
  (s.setCo { s.co.wr d (BitVec.ofNat 64 r.1) with fmode := s.co.fmode ||| (r.2.setWidth 13 <<< 8) }).retire

/-- An exact result rounded once: to the instruction's mode, or fmode's where that is 0 (R46, R91). -/
def rounded (s : State) (dbl : Bool) (rm : Nat) (r : Ex × BitVec 5) : Nat × BitVec 5 := (fmt dbl).round (s.co.rnd rm 0) r.1 r.2

/-- The forms of FPU with two sources and a result in the format (R91). -/
def fpu2 : List ((Bool → Reg → Reg → Reg → Instr) × (Nat → FV → FV → Ex × BitVec 5)) :=
  [(.fadd, fun rm x y => (.val (x.add rm y).1, (x.add rm y).2)),
   (.fsub, fun rm x y => (.val (x.add rm y.neg).1, (x.add rm y.neg).2)),
   (.fmul, fun _ x y => (.val (x.mul y).1, (x.mul y).2)),
   (.fdiv, fun _ x y => x.div y),
   (.fmin, fun _ x y => (.val (x.pick false y).1, (x.pick false y).2)),
   (.fmax, fun _ x y => (.val (x.pick true y).1, (x.pick true y).2))]

/-- FFMA, FFMS and FNMA: the product's and the addend's signs (R93). -/
def fused : List ((Reg → Reg → Reg → Reg → BitVec 7 → Instr) × Bool × Bool) :=
  [(.ffma, false, false), (.ffms, false, true), (.fnma, true, false)]

/-- The class of a code by its sign, exponent and fraction: the bit that FCLASS sets (R92). eb and fb are the widths of
the exponent and the fraction. -/
def classBit (eb fb x : Nat) : Nat :=
  let neg := x.testBit (eb + fb)
  let e := x / 2 ^ fb % 2 ^ eb
  let m := x % 2 ^ fb
  if e = 2 ^ eb - 1 then
    if m = 0 then (if neg then 0 else 7) else if m.testBit (fb - 1) then 9 else 8
  else if e = 0 then
    if m = 0 then (if neg then 3 else 4) else (if neg then 2 else 5)
  else if neg then 1 else 6

end Sys2Proof.Claims

/-- R90, R91, R93: arithmetic forms read their sources in the format, compute exactly and round once, write the code to s[D]
and OR the flags into fmode. -/
def Obligations.FpArithmeticResults : Prop :=
  ∀ (d a b c : Reg) (dbl : Bool) (y : BitVec 7) (s : State),
    (s.Free [a, b] [d] → ∀ x ∈ Claims.fpu2,
      exec (x.1 dbl d a b) s = .next (Claims.fdone s d (Claims.rounded s dbl 0
        (x.2 (s.co.rnd 0 0).rm (Claims.fv dbl (s.rd a)) (Claims.fv dbl (s.rd b)))))) ∧
    (s.Free [a] [d] →
      exec (.fsqrt dbl d a) s = .next (Claims.fdone s d (Claims.rounded s dbl 0 (Claims.fv dbl (s.rd a)).sqrt)) ∧
      exec (.fcvtif dbl d a) s = .next (Claims.fdone s d (Claims.rounded s dbl 0 (.val (FV.ofInt (s.rd a).toInt), 0))) ∧
      exec (.fcvtfi dbl d a) s = .next (Claims.fdone s d ((Claims.fv dbl (s.rd a)).toInt (s.co.rnd 0 0) true 64))) ∧
    (s.Free [a, b, c] [d] → y.extractLsb' 3 4 = (if dbl then 13 else 12) → ∀ x ∈ Claims.fused,
      exec (x.1 d a b c y) s = .next (Claims.fdone s d (Claims.rounded s dbl (y.extractLsb' 0 3).toNat
        (let p := if x.2.1 then (Claims.fv dbl (s.rd a)).neg else Claims.fv dbl (s.rd a)
         let z := if x.2.2 then (Claims.fv dbl (s.rd c)).neg else Claims.fv dbl (s.rd c)
         let r := p.fma (s.co.rnd (y.extractLsb' 0 3).toNat 0).rm (Claims.fv dbl (s.rd b)) z
         (.val r.1, r.2)))))

/-- R51, R91: the comparisons give 1 or 0; a NaN gives 0, and sets NV if it is signalling, or for FLT and FLE always. -/
def Obligations.FpComparisons : Prop :=
  ∀ (d a b : Reg) (dbl : Bool) (s : State), s.Free [a, b] [d] →
    let x := Claims.fv dbl (s.rd a)
    let y := Claims.fv dbl (s.rd b)
    (x.isNan = true ∨ y.isNan = true →
      exec (.feq dbl d a b) s = .next (Claims.fdone s d (0, if x.isSig || y.isSig then 0b10000 else 0)) ∧
      exec (.flt dbl d a b) s = .next (Claims.fdone s d (0, 0b10000)) ∧
      exec (.fle dbl d a b) s = .next (Claims.fdone s d (0, 0b10000))) ∧
    (x.isNan = false → y.isNan = false →
      exec (.feq dbl d a b) s = .next (Claims.fdone s d (if x.lt y ∨ y.lt x then 0 else 1, 0)) ∧
      exec (.flt dbl d a b) s = .next (Claims.fdone s d (if x.lt y then 1 else 0, 0)) ∧
      exec (.fle dbl d a b) s = .next (Claims.fdone s d (if y.lt x then 0 else 1, 0)))

/-- R92: FCLASS sets exactly one bit of s[D], the one of its source's class, and no flag. -/
def Obligations.FclassSetsOneBit : Prop :=
  ∀ (d a : Reg) (s : State), s.Free [a] [d] →
    exec (.fclass true d a) s = .next (s.wr d (1 <<< Claims.classBit 11 52 (s.rd a).toNat)).retire ∧
    exec (.fclass false d a) s = .next (s.wr d (1 <<< Claims.classBit 8 23 ((s.rd a).toNat % 2 ^ 32))).retire

/-- R68, R85, R90: the frame of FPU and FFMA. Outside a loop nothing changes but s[D], the PC and flags of fmode, which are only
ever set; the comparisons and FCLASS among them. -/
def Sys2Proof.Claims.fpFrame : Prop :=
  ∀ (d a b c : Reg) (dbl : Bool) (y : BitVec 7) (s : State), s.co.looping = false → s.Free [a, b, c] [d] →
    ∀ i ∈ (Claims.fpu2.map fun x => x.1 dbl d a b) ++ (Claims.fused.map fun x => x.1 d a b c y) ++
        [Instr.fsqrt dbl d a, .feq dbl d a b, .flt dbl d a b, .fle dbl d a b, .fcvtif dbl d a, .fcvtfi dbl d a, .fclass dbl d a],
      ∃ t, exec i s = .next t ∧ Claims.RegisterOnly s t d ∧ t.co.pc = s.co.next ∧ t.rd 0 = 0 ∧
        ∃ f : BitVec 5, t.co.fmode = s.co.fmode ||| (f.setWidth 13 <<< 8)

/-- R84, R85: what the scalar integer and floating-point instructions leave as it was. -/
def Obligations.ScalarFrames : Prop := Claims.aluFrame ∧ Claims.fpFrame

/-! ### Loads, stores, atomics and futures (R94 to R101) -/

namespace Sys2Proof.Claims

/-- The packages are alike but for the errors that they have counted and the walks' results that accesses have met (R305, R365). -/
def SamePkgs (s u : State) : Prop :=
  ∀ n, ({ u.pkg n with corrected := (s.pkg n).corrected, errors := (s.pkg n).errors, missed := (s.pkg n).missed } : Pkg) = s.pkg n

/-- Alike but for what has been counted: events of the core in focus, and what SamePkgs names (R76, R305, R365). -/
def Counted (s u : State) : Prop :=
  (∃ p l, u = { s.setCur { s.cur with pmc := p } with pkgs := l }) ∧ SamePkgs s u

/-- Two states alike in all that a program sees: a step between them has only noted pages and lines in the chunk and counted
events and corrected errors (R76, R249, R307, R365). -/
def Alike (s u : State) : Prop :=
  u.co = s.co ∧ u.ext = s.ext ∧ (∀ a, u.seen a = s.seen a) ∧ u.cur.vq = s.cur.vq ∧ u.cur.slots = s.cur.slots ∧
  u.cur.running = s.cur.running ∧ u.cur.mailbox = s.cur.mailbox ∧ u.cur.blocks = s.cur.blocks ∧ u.cur.colls = s.cur.colls ∧
  u.cur.waiting = s.cur.waiting ∧ u.cur.chunk.writes = s.cur.chunk.writes ∧
  u.cur.chunk.posts = s.cur.chunk.posts ∧ u.cur.chunk.mmio = s.cur.chunk.mmio ∧ u.cur.chunk.compl = s.cur.chunk.compl ∧
  u.mem = s.mem ∧ u.clusters = s.clusters ∧ u.dies = s.dies ∧ SamePkgs s u ∧ u.flight = s.flight ∧ u.agenda = s.agenda ∧
  u.focus = s.focus ∧ ∀ g, g ≠ s.focus → u.core g = s.core g

/-- As Alike, but the bytes of a store: each listed address holds the last byte that is given for it (R5, R94), and every
other byte, and memory itself, is as before until the chunk commits. -/
def Stored (s u : State) (pas : List Pa) (bs : List Byte) : Prop :=
  u.co = s.co ∧ u.ext = s.ext ∧ u.mem = s.mem ∧ u.clusters = s.clusters ∧ u.dies = s.dies ∧ SamePkgs s u ∧
  u.flight = s.flight ∧ u.focus = s.focus ∧ (∀ g, g ≠ s.focus → u.core g = s.core g) ∧
  u.cur.chunk.posts = s.cur.chunk.posts ∧ u.cur.chunk.mmio = s.cur.chunk.mmio ∧
  (∀ a, a ∉ pas → u.seen a = s.seen a) ∧
  ∀ (i : Nat) (a : Pa) (b : Byte), pas[i]? = some a → bs[i]? = some b → (∀ j : Nat, i < j → pas[j]? ≠ some a) → u.seen a = b

/-- An access of n bytes need not wait for the walker (R305), and is reached: it translates, its targets permit it, and no range lock covers
it (R95, R96, R259). -/
def Reached (s : State) (k : Kind) (scalar : Bool) (va : Word) (n : Nat) (segs : List Seg) : Prop :=
  s.walkWait s.space (n / 65536 + 2) va n = none ∧ s.reach s.space k scalar va n = .ok segs

/-- The chunk takes a read of the bytes: no other core has the line uncommitted, the read signature and the L1 set have room, and no
codeword that is read from memory fails (R249, R253, R254, R366). -/
def TakesRead (s : State) (pas : List Pa) : Prop :=
  s.ownerBusy s.focus pas = false ∧ s.cur.chunk.readCut (newLines s.cur.chunk.reads pas) = false ∧
  s.l1Cut false (pas.map Sys2Proof.Machine.lineOf) = false ∧ s.badByte pas = none

/-- The chunk takes a write of the segments: its footprint and the L1 set have room, and no failing codeword would have to be merged (R249,
R253, R366). -/
def TakesWrite (s : State) (segs : List Seg) : Prop :=
  (∀ g ∈ segs, s.mergesFailing g.pa g.len = false) ∧ s.cur.chunk.writeCut (newLines s.cur.chunk.wrote (segBytes segs)) = false ∧
  s.l1Cut true (newLines s.cur.chunk.wrote (segBytes segs)) = false

/-- A load of n bytes is served by this package (R95, R96). -/
def LoadsHere (s : State) (scalar : Bool) (va : Word) (n : Nat) (segs : List Seg) : Prop :=
  Reached s .load scalar va n segs ∧ remote (pkgOf s.focus) segs = false ∧ s.isMmio segs = false ∧ TakesRead s (segBytes segs)

/-- A store of n bytes is taken into the chunk (R95, R96). -/
def StoresHere (s : State) (va : Word) (n : Nat) (segs : List Seg) : Prop :=
  Reached s .store true va n segs ∧ remote (pkgOf s.focus) segs = false ∧ s.isMmio segs = false ∧ TakesWrite s segs

/-- The loads: their bytes, and whether the number that these form is sign-extended (R94). -/
def loads : List ((Reg → Reg → BitVec 27 → Instr) × Nat × Bool) :=
  [(.ldb, 1, true), (.ldh, 2, true), (.ldw, 4, true), (.ldd, 8, false), (.ldnb, 1, false), (.ldnh, 2, false), (.ldnw, 4, false)]

/-- The register's value for n bytes that form the number x. -/
def extended (n : Nat) (signed : Bool) (x : Nat) : Word :=
  if signed then (BitVec.ofNat (8 * n) x).signExtend 64 else (BitVec.ofNat (8 * n) x).setWidth 64

/-- The stores and their bytes (R94). -/
def stores : List ((Reg → Reg → BitVec 27 → Instr) × Nat) := [(.stb, 1), (.sth, 2), (.stw, 4), (.std, 8)]

/-- The AMOs with one operand: the new value of a location of w bits that holds m (R98). -/
def amos : List ((Bool → Reg → Reg → Reg → BitVec 3 → Instr) × ((w : Nat) → BitVec w → BitVec w → BitVec w)) :=
  [(.aadd, fun _ m x => m + x), (.aand, fun _ m x => m &&& x), (.aor, fun _ m x => m ||| x), (.axor, fun _ m x => m ^^^ x),
   (.amin, fun _ m x => if BitVec.slt x m then x else m), (.amax, fun _ m x => if BitVec.slt m x then x else m),
   (.aminn, fun _ m x => if BitVec.ult x m then x else m), (.amaxn, fun _ m x => if BitVec.ult m x then x else m), (.aswp, fun _ _ x => x)]

/-- The location of an AMO in this package: aligned, translated for a store, and both its read and its write taken into
the chunk (R98, R99). -/
def AmoHere (s : State) (dbl : Bool) (va : Word) (segs : List Seg) : Prop :=
  va.toNat % (if dbl then 8 else 4) = 0 ∧ Reached s .store false va (if dbl then 8 else 4) segs ∧
  remote (pkgOf s.focus) segs = false ∧ TakesRead s (segBytes segs) ∧ TakesWrite s segs

/-- What an AMO in this package does: the location holds v in the chunk, s[d] is pending, and the chunk's commit writes the
old value to it, with completion status for a word (R98 to R100). -/
def AmoDone (s t : State) (dbl : Bool) (d : Reg) (segs : List Seg) (v : Nat) : Prop :=
  (∀ a, a ∉ segBytes segs → t.seen a = s.seen a) ∧
  (segBytes segs).map t.seen = leBytes (if dbl then 8 else 4) v ∧ t.mem = s.mem ∧
  (d ≠ 0 → t.co.isPend d = true) ∧ (∀ r, t.rd r = s.rd r) ∧
  t.cur.chunk.compl = s.cur.chunk.compl ++ [(d, if dbl then BitVec.ofNat 64 (leNat ((segBytes segs).map s.seen))
    else BitVec.ofNat 64 (2 ^ 63 + leNat ((segBytes segs).map s.seen)))]

end Sys2Proof.Claims

/-- R94, R95, R96: each load of this package writes the bytes that the coroutine sees to s[D], extended as its row says, for
every alignment, and changes nothing else. -/
def Obligations.LoadsReadWhatIsSeen : Prop :=
  ∀ x ∈ Claims.loads, ∀ (d a : Reg) (imm : BitVec 27) (s : State) (segs : List Seg),
    s.Free [a] [d] → Claims.LoadsHere s true (s.rd a + imm.signExtend 64) x.2.1 segs →
    ∃ u, exec (x.1 d a imm) s = .next (u.wr d (Claims.extended x.2.1 x.2.2 (leNat ((segBytes segs).map s.seen)))).retire ∧ Claims.Alike s u

/-- R94, R95, R247: each store to this package puts the low bytes of s[D], lowest first, at the bytes of s[A] + imm as
translation gives them; every other byte, every register and flag is as before, and memory itself until the commit. The
chunk's stores stay in the order of their addresses. -/
def Obligations.StoresWriteTheirBytes : Prop :=
  ∀ x ∈ Claims.stores, ∀ (d a : Reg) (imm : BitVec 27) (s : State) (segs : List Seg),
    s.Free [a, d] [] → Claims.StoresHere s (s.rd a + imm.signExtend 64) x.2 segs →
    ∃ u, exec (x.1 d a imm) s = .next u.retire ∧ Claims.Stored s u (segBytes segs) (leBytes x.2 (s.rd d).toNat) ∧
      (s.cur.chunk.writes.Pairwise (·.1 < ·.1) → u.cur.chunk.writes.Pairwise (·.1 < ·.1))

/-- R95, R97, R261: a load with bytes in another package leaves s[D] pending and sends the addresses of those bytes to their home, with
the bytes that the coroutine sees of the pieces in this package; it is sent at once, but at the chunk's commit where it is one of a
kernel MMIO register or where a store of the chunk is to be posted to its bytes first. A store to another package is held, piece
by piece, until the chunk commits. Neither changes a register, a flag or a byte.
The model's own reading or choice in it: log 49. -/
def Obligations.RemoteAccessesAreSent : Prop :=
  (∀ x ∈ Claims.loads, ∀ (d a : Reg) (imm : BitVec 27) (s : State) (segs : List Seg) (va : Word), s.Free [a] [d] →
    va = s.rd a + imm.signExtend 64 → Claims.Reached s .load true va x.2.1 segs → remote (pkgOf s.focus) segs = true →
    ((∀ g ∈ segs, paPkg g.pa ≠ pkgOf s.focus) → ∃ u, Claims.Alike s u ∧
      ∀ e, e = Event.remoteLoadAtHome s.who d (segs.map fun g => (g.pa, g.len, [])) x.2.2 va s.co.tenant →
        (s.isMmio segs = false → s.cur.postsTo segs = false →
          exec (x.1 d a imm) s = .next ((u.setCo (s.co.setPend d)).post e).retire) ∧
        (s.isMmio segs = true ∨ s.cur.postsTo segs = true → ∃ p, exec (x.1 d a imm) s = .next ((u.setCo (s.co.setPend d)).setChunk
          { u.cur.chunk with posts := s.cur.chunk.posts ++ [⟨e, paPkg p, p, 0⟩] }).retire)) ∧
    ∀ v ps, (s.notePages .load va x.2.1).loadPieces va segs = .ok v ps → Claims.Alike s v ∧
      ps = segs.map (fun g => (g.pa, g.len, if paPkg g.pa = pkgOf s.focus then (segBytes [g]).map s.seen else [])) ∧
      exec (x.1 d a imm) s = .next ((v.setCo (s.co.setPend d)).sendLoad segs
        (.remoteLoadAtHome s.who d ps x.2.2 va s.co.tenant)).retire) ∧
  ∀ x ∈ Claims.stores, ∀ (d a : Reg) (imm : BitVec 27) (s : State) (segs : List Seg) (va : Word), s.Free [a, d] [] →
    va = s.rd a + imm.signExtend 64 → Claims.Reached s .store true va x.2 segs → (∀ g ∈ segs, paPkg g.pa ≠ pkgOf s.focus) →
    ∃ u t : State, exec (x.1 d a imm) s = .next t.retire ∧ Claims.Alike s u ∧
      t = u.setChunk { u.cur.chunk with
        posts := s.cur.chunk.posts ++ (segRuns va segs (leBytes x.2 (s.rd d).toNat)).flatMap fun r =>
          remotePosts s.who s.co.tenant r.2.1.pa r.2.2 }

/-- R95, R96, R259: a scalar access that cannot be reached takes the trap that says why, with the chunk up to it committed and its TLB
misses counted; one that must wait for the walker joins the walk of its page, or waits its turn (R305). -/
def Obligations.FailedAccessesTrap : Prop :=
  ∀ (d a : Reg) (imm : BitVec 27) (s : State) (va : Word), va = s.rd a + imm.signExtend 64 →
    (s.Free [a] [d] → ∀ x ∈ Claims.loads,
      (∀ w, s.walkWait s.space (x.2.1 / 65536 + 2) va x.2.1 = some w → exec (x.1 d a imm) s = .next (s.awaitWalk s.co.asid w)) ∧
      (s.walkWait s.space (x.2.1 / 65536 + 2) va x.2.1 = none → ∀ t, s.reach s.space .load true va x.2.1 = .error t →
        (∃ u, Claims.Counted s u ∧ exec (x.1 d a imm) s = .next (u.takeTrap t s.co.pc)) ∧
          (t.cause = 5 ∨ t.cause = 7 ∨ t.cause = 8))) ∧
    (s.Free [a, d] [] → ∀ x ∈ Claims.stores,
      (∀ w, s.walkWait s.space (x.2 / 65536 + 2) va x.2 = some w → exec (x.1 d a imm) s = .next (s.awaitWalk s.co.asid w)) ∧
      (s.walkWait s.space (x.2 / 65536 + 2) va x.2 = none → ∀ t, s.reach s.space .store true va x.2 = .error t →
        (∃ u, Claims.Counted s u ∧ exec (x.1 d a imm) s = .next (u.takeTrap t s.co.pc)) ∧
          (t.cause = 6 ∨ t.cause = 7 ∨ t.cause = 8)))

/-- R98, R99, R100, R257: an AMO of cluster or package scope in its own package is one read-modify-write in the chunk: the
location takes the new value of its row, and s[D] is pending until the commit, which writes the old value to it. -/
def Sys2Proof.Claims.amosInThisPackage : Prop :=
  (∀ x ∈ Claims.amos, ∀ (dbl : Bool) (d a b : Reg) (scope : BitVec 3) (s : State) (segs : List Seg),
    s.co.looping = false → scope.toNat ≤ 2 → s.Free [a, b] [d] → Claims.AmoHere s dbl (s.rd a) segs →
    ∃ t, exec (x.1 dbl d a b scope) s = .next t ∧ t.co.pc = s.co.next ∧
      Claims.AmoDone s t dbl d segs (x.2 (if dbl then 64 else 32)
        (BitVec.ofNat _ (leNat ((segBytes segs).map s.seen))) ((s.rd b).setWidth _)).toNat) ∧
  ∀ (dbl : Bool) (d a b c : Reg) (scope : BitVec 3) (s : State) (segs : List Seg),
    s.co.looping = false → scope.toNat ≤ 2 → s.Free [a, b, c] [d] → Claims.AmoHere s dbl (s.rd a) segs →
    ∃ t, exec (.acas dbl d a b c scope) s = .next t ∧ t.co.pc = s.co.next ∧
      Claims.AmoDone s t dbl d segs (if leNat ((segBytes segs).map s.seen) = (s.rd c).toNat % 2 ^ (if dbl then 64 else 32)
        then (s.rd b).toNat % 2 ^ (if dbl then 64 else 32) else leNat ((segBytes segs).map s.seen))

/-- R98, R99, R261: an AMO of pod scope, or of any scope to another package, ends its chunk; the commit sends it to its
home, and s[D] stays pending until the answer. A misaligned one takes cause 6. -/
def Sys2Proof.Claims.amosToHomesAreSent : Prop :=
  ∀ (x : Reg → Instr) (f : BitVec 6) (dbl : Bool) (d a b : Reg) (c : Option Reg) (scope : BitVec 3) (s : State),
    ((x, f) ∈ [(fun d => Instr.aadd dbl d a b scope, (0 : BitVec 6)), (fun d => .aand dbl d a b scope, 1),
        (fun d => .aor dbl d a b scope, 2), (fun d => .axor dbl d a b scope, 3), (fun d => .amin dbl d a b scope, 4),
        (fun d => .amax dbl d a b scope, 5), (fun d => .aminn dbl d a b scope, 6), (fun d => .amaxn dbl d a b scope, 7),
        (fun d => .aswp dbl d a b scope, 8)] ∧ c = none ∨ ∃ k, c = some k ∧ x = (fun d => .acas dbl d a b k scope) ∧ f = 9) →
    s.Free ([a, b] ++ c.toList) [d] →
    ((s.rd a).toNat % (if dbl then 8 else 4) ≠ 0 → exec (x d) s = .next (s.takeTrap ⟨6, s.rd a, 0, none⟩ s.co.pc)) ∧
    ∀ segs, (s.rd a).toNat % (if dbl then 8 else 4) = 0 → Claims.Reached s .store false (s.rd a) (if dbl then 8 else 4) segs →
      2 < scope.toNat ∨ remote (pkgOf s.focus) segs = true → s.MayCommit →
      ∃ u, exec (x d) s = .next (s.ended u) ∧ u.co = s.co.setPend d ∧ u.mem = s.mem ∧
        u.cur.chunk.writes = s.cur.chunk.writes ∧
        u.cur.chunk.posts = s.cur.chunk.posts ++
          [⟨.amoAtHome s.who d (segs.headD ⟨0, 0, false⟩).pa f dbl (s.rd b) (c.elim 0 s.rd) (s.rd a) ⟨s.co.tenant, 0, []⟩,
            paPkg (segs.headD ⟨0, 0, false⟩).pa, (segs.headD ⟨0, 0, false⟩).pa, if dbl then 8 else 4⟩]

/-- R98 to R100, R257, R261: AMOs in their own package, and AMOs that are sent to a home.
The model's own reading or choice in it: log 10. -/
def Obligations.AmosAreIndivisible : Prop := Claims.amosInThisPackage ∧ Claims.amosToHomesAreSent

/-- R101, R264: LDF and STF end their chunk and then send their request to the home of the future, LDF with s[D] pending, STF with the
posted writes before it, which it waits for there. -/
def Obligations.FuturesAreSent : Prop :=
  ∀ (d a : Reg) (imm : BitVec 27) (s u : State) (pa : Pa), s.MayCommit →
    (s.Free [a] [d] → s.futureTarget .load (s.rd a + imm.signExtend 64) = .ok u pa → Claims.Alike s u ∧
      exec (.ldf d a imm) s = .next ((s.ended (u.setCo (u.co.setPend d))).send pa
        (.futureLoadAtHome s.who d pa ⟨s.rd a + imm.signExtend 64, s.co.tenant⟩))) ∧
    (s.Free [a, d] [] → s.futureTarget .store (s.rd a + imm.signExtend 64) = .ok u pa →
      (paPkg pa = pkgOf s.focus → s.mergesFailing pa 8 = false) → Claims.Alike s u ∧
      exec (.stf d a imm) s = .next ((s.ended u).send pa (.futureStoreAtHome s.who pa ⟨s.rd d, s.co.tenant, 0, (s.ended u).ext.unacked⟩)))

/-- R299: a doubleword load of a kernel MMIO register reads it as it would stand after the core's uncommitted MMIO stores; the chunk keeps what
it has read, and does not commit where a register has changed since. A doubleword store joins the chunk's MMIO stores, which the
commit performs in order.
The model's own reading or choice in it: log 9. -/
def Obligations.MmioAccesses : Prop :=
  ∀ (d a : Reg) (imm : BitVec 27) (s : State) (segs : List Seg) (g : Seg) (va : Word), va = s.rd a + imm.signExtend 64 →
    segs.head? = some g → s.isMmio segs = true → remote (pkgOf s.focus) segs = false →
    (s.Free [a] [d] → Claims.Reached s .load true va 8 segs →
      ∃ (u : State) (v : Word), exec (.ldd d a imm) s = .next (u.wr d v).retire ∧
        v = (((((s.cur.waiting.map (·.mmio)).getD [] ++ s.cur.chunk.mmio).foldl (fun s w => s.mmioWrite w.1 w.2)
          (s.notePages .load va 8)).mmioRead g.pa).getD 0) ∧
        u.cur.chunk.mloads = s.cur.chunk.mloads ++ [(s.cur.chunk.mmio.length, g.pa, v)] ∧ Claims.Alike s u) ∧
    (s.Free [a, d] [] → Claims.Reached s .store true va 8 segs → s.mmioClash s.cur.chunk.mmio g.pa = false →
      ∃ u : State, exec (.std d a imm) s = .next u.retire ∧ u.cur.chunk.mmio = s.cur.chunk.mmio ++ [(g.pa, s.rd d)] ∧
        u.co = s.co ∧ u.mem = s.mem ∧ ∀ a, u.seen a = s.seen a) ∧
    (s.mmioStands s.cur.chunk = false → s.commit s.focus = none)

/-- R247, R99: a commit writes to memory exactly the bytes that the chunk has stored, the last one given for an address, and
every other byte stays (a wake watch that sees a write arms its promotion token besides, R350, and an atomic that has met an error has its
record posted, R366); where the stores stand in the order of their addresses, as every store keeps them
(StoresWriteTheirBytes), memory then reads as the coroutine saw it. The completions of the chunk's atomics are written,
every other register is kept, what the chunk posted is under way, its writes numbered, and an empty chunk starts. -/
def Sys2Proof.Claims.commitsItsChunk : Prop :=
  ∀ s : State, s.MayCommit → s.PlainChunk s.cur.chunk → Memory.wf s.mem = true →
    ∃ t, s.commit s.focus = some t ∧ Memory.wf t.mem = true ∧
      (∀ a, (∀ x ∈ s.cur.chunk.writes, x.1 ≠ a) → memGet t.mem a = memGet s.mem a) ∧
      (∀ (i : Nat) a b, s.cur.chunk.writes[i]? = some (a, b) →
        (∀ (j : Nat) c, i < j → s.cur.chunk.writes[j]? ≠ some (a, c)) → memGet t.mem a = b) ∧
      (s.cur.chunk.writes.Pairwise (·.1 < ·.1) → ∀ a, memGet t.mem a = s.seen a) ∧
      t.co = s.cur.chunk.compl.foldl (fun c x => c.wr x.1 x.2) s.co ∧ t.cur.chunk = Chunk.fresh t.co ∧
      (∀ e ∈ s.cur.chunk.posts, ∃ n, e.ev.numbered n ∈ t.flight) ∧
      ∀ e ∈ s.flight, (∀ w r l b ea tn, e ≠ .remoteLoadAtHome w r l b ea tn) →
        (∀ w r v b, e ≠ .pendingRegisterCompletion w r v b) → e ∈ t.flight

/-- The request of a SPAWN, with the parent's type, class, ceiling, ASID, tenant and granary grant, and the stage and kind of its Y field
(R212, R213). -/
def Sys2Proof.Claims.spawned (s : State) (d a b c e : Reg) (y : BitVec 7) (after : List Nat) (probes : List (Nat × Nat)) (failed : Bool) : SpawnReq where
  parent := s.who
  reg := d
  kind := (y.extractLsb' 0 3).toNat
  cid := (s.rd e).extractLsb' 0 32
  target := s.rd e
  pc := s.rd a
  s1 := s.rd b
  s2 := s.rd c
  stage := y.extractLsb' 3 4
  vtype := s.co.vtype
  cls := s.co.cls
  ceil := s.co.ceil
  asid := s.co.asid
  tenant := s.co.tenant
  grant := s.co.grant
  after := after
  probes := probes
  failed := failed

/-- Instructions that end their chunk in s (R226, R246, R248, R354, R373): what they have done, u, before they are complete, and what they
leave to do at the commit point, if anything. -/
def Sys2Proof.Claims.Ends (s : State) (i : Instr) (u : State) (a : Option After) : Prop :=
  (i = .cseal ∧ s.ext.openB = none ∧ u = s ∧ a = none) ∨
  (∃ b, i = .cseal ∧ s.ext.openB = some b ∧ (b.left = 0 ∨ s.ext.sealedB.length < 16) ∧ u = s ∧ a = some .seal) ∨
  (i = .snap ∧ u = s ∧ a = if (s.pkg (pkgOf s.focus)).snap.tenants.getLsbD s.co.tenant.toNat then some .trigger else none) ∨
  (∃ d, i = .balloc d ∧ s.Free [] [d] ∧ u = s.setCo (s.co.setPend d) ∧ a = some (.balloc d)) ∨
  (∃ x y, i = .tarmc x y ∧ s.Free [x, y] [] ∧ u = s ∧ a = some (.armCell ((s.rd x).extractLsb' 0 8).toNat (s.rd y))) ∨
  (∃ d x, i = .tpollc d x ∧ s.Free [x] [d] ∧ u = s.setCo (s.co.setPend d) ∧ a = some (.pollCell d ((s.rd x).extractLsb' 0 8).toNat)) ∨
  (∃ x, i = .mhand x ∧ s.Free [x] [] ∧ (s.rd x).getLsbD 40 = false ∧ u = s ∧ a = some (.handler none)) ∨
  ∃ d e f g h y, i = .spawn d e f g h y ∧ s.Free [e, f, g, h] [d] ∧ u = s.setCo (s.co.setPend d) ∧ a = some (.spawn (Claims.spawned s d e f g h y [] [] false))

/-- R247, R248, R250: an instruction that ends its chunk (Claims.Ends) where another core's sole-mode chunk holds the commit is complete: its
chunk waits for the weir, the next one starts, and its commit is under way, which writes the bytes of the chunk when it comes and then does
what the instruction does at its commit point. The coroutine sees its own stores throughout. An access that conflicts with the waiting
chunk takes the coroutine back to that one's start. -/
def Sys2Proof.Claims.chunksWait : Prop :=
  ∀ (s u : State) (i : Instr) (a : Option After),
    s.commitHeld s.focus = true → s.cur.waiting = none → s.cur.vq = [] → s.cur.chunk.mmio = [] → s.cur.chunk.mloads = [] →
    Claims.Ends s i u a → s.cur.chunk.after = none → ∃ t, exec i s = .next t ∧ t.focus = s.focus ∧ t.mem = s.mem ∧ t.co = u.retire.co ∧
      (∀ b, t.seen b = s.seen b) ∧ t.cur.chunk = Chunk.fresh t.co ∧ Event.chunkCommit s.focus ∈ t.flight ∧
      ∃ k, t.cur.waiting = some k ∧ k.after = a ∧ k.writes = s.cur.chunk.writes ∧ k.start = s.cur.chunk.start ∧
        k.posts = s.cur.chunk.posts ∧
        (∀ v : State, v.core s.focus = t.core s.focus → v.soleBlocks (pkgOf s.focus) (some s.focus) k.wrote = false → v.PlainChunk k →
          ∃ w : State, w.mem = memPuts v.mem k.writes ∧ w.focus = s.focus ∧ w.cur.waiting = none ∧
            w.co = k.compl.foldl (fun c x => c.wr x.1 x.2) (v.core s.focus).co ∧
            exec (.chunkCommit s.focus) v = .next { a.elim w w.runAfter with focus := v.focus }) ∧
        ∀ v : State, v.core s.focus = t.core s.focus → (t.core s.focus).running ≠ none →
          ((v.squash s.focus true).core s.focus).co = k.start ∧ ((v.squash s.focus true).core s.focus).waiting = none

/-- R99, R247, R248, R250: what a commit does, and what becomes of a chunk that ends while the weir holds its commit.
The model's own reading or choice in it: log 5. -/
def Obligations.CommitWritesExactlyTheChunk : Prop := Claims.commitsItsChunk ∧ Claims.chunksWait

/-! ### Transfers, the loop, traps and control registers (R20, R21, R72 to R75, R102 to R111, R216 to R218) -/

namespace Sys2Proof.Claims

/-- The conditional branches, with what takes them (R102). -/
def branches : List ((Reg → Reg → BitVec 22 → Instr) × (Word → Word → Bool)) :=
  [(.beq, fun a b => a == b), (.bne, fun a b => a != b), (.blt, fun a b => a.slt b), (.bge, fun a b => !a.slt b),
   (.bltn, fun a b => a.ult b), (.bgen, fun a b => !a.ult b)]

/-- R21's checks 1 and 4: the address is no head's. -/
def NotAHead (s : State) (t : Word) : Prop :=
  t.toNat % 64 = 0 ∨ t.toNat % 2 = 1 ∨
    ∃ b, s.lineBytes s.focus s.co.mode (t - BitVec.ofNat 64 (t.toNat % 64)) = .ok b ∧ lineWf b = true ∧ lineCount b < t.toNat % 64 / 2

/-- A transfer made: a head more in the chunk, the PC at the target, an active loop ended (R106, R248). -/
def Transferred (s t : State) (a : Word) : Prop :=
  t.co = { s.co with pc := a, lstate := if lDepth s.co.lstate ≠ 0 ∧ s.co.lfrz = false then 0 else s.co.lstate } ∧
  t.cur.chunk = { s.cur.chunk with heads := s.cur.chunk.heads + 1, ended := s.cur.chunk.ended || 512 ≤ s.cur.chunk.heads + 1 } ∧
  t.mem = s.mem ∧ t.ext = s.ext ∧ t.pkgs = s.pkgs ∧ t.clusters = s.clusters ∧ t.flight = s.flight ∧
  ∀ g, g ≠ s.focus → t.core g = s.core g

/-- The trip-count register of level j of the active loop (R75, R104). -/
def counter (c : Co) (j : Nat) : Reg := BitVec.ofNat 5 ((c.lstate.extractLsb' 14 5).toNat + j)

/-- Level j of the active loop has a pass left: its index plus one is below its trip count (R105). -/
def Advances (c : Co) (j : Nat) : Prop :=
  ((c.rd (counter c j)).extractLsb' 0 32).toNat + 1 < ((c.rd (counter c j)).extractLsb' 32 32).toNat

/-- A trap that the coroutine can enter: its chunk may commit, it need not wait for element groups, and `tvec` is a head that can be
fetched in kernel mode (R199, R216). -/
def Enters (s : State) (t : Trap) : Prop :=
  s.MayCommit ∧ s.haltWaits = false ∧ ((s.commitNow s.focus).reportTrap t).fate s.focus .kernel s.co.tvec = .ok

/-- The control registers that can be written, with the bits that a write changes (R48, R74, R75). -/
def csrMask : List (Nat × Word) :=
  [(0x002, 0x1FFFF), (0x003, 0x17F7F), (0x008, 0x1F07), (0x009, 0x1F), (0x010, BitVec.allOnes 64), (0x011, BitVec.allOnes 64),
   (0x022, 0x3), (0x023, 0xFFFFFFFF), (0x030, 0xFFFFFFFF1FFFFFFF), (0x040, BitVec.allOnes 64), (0x041, BitVec.allOnes 64),
   (0x042, 0x3F), (0x043, BitVec.allOnes 64), (0x044, 0x83FFFFFFFFFFFFFF), (0x100, 0xFFFFFFFFFFFF)] ++
  (List.range 16).map fun i => (0x110 + i, 0x3FF)

/-- Registers that are read-only in both modes (R74). -/
def csrReadOnly : List Nat := [0x000, 0x001, 0x018, 0x019, 0x020, 0x021, 0x050, 0x051, 0x101, 0x102]

/-- Registers that user mode only reads (R74). -/
def csrKernelWritten : List Nat := [0x023, 0x040, 0x041, 0x042, 0x043, 0x044]

/-- CSRW, CSRS and CSRC: the value written, from the old one and s[A] (R108). -/
def csrWrites : List ((Reg → Reg → BitVec 11 → Instr) × (Word → Word → Word)) :=
  [(.csrw, fun _ a => a), (.csrs, fun old a => old ||| a), (.csrc, fun old a => old &&& ~~~a)]

/-- The class of the number lets the mode reach it (R73, check 1). -/
def csrReached (s : State) (n : Nat) : Prop := ¬(0x400 ≤ n ∧ n < 0x500) ∧ (0x100 ≤ n → n < 0x200 → s.co.mode = .kernel)

end Sys2Proof.Claims

/-- R102, R21: a branch that is not taken falls through and checks nothing; one that is taken goes to its own head plus twice
the offset, or, where that is no head, takes cause 3 at itself. -/
def Sys2Proof.Claims.branchesGoWhereTheySay : Prop :=
  ∀ x ∈ Claims.branches, ∀ (a b : Reg) (off : BitVec 22) (s : State), s.Free [a, b] [] →
    let t := s.co.pc + off.signExtend 64 * 2
    (x.2 (s.rd a) (s.rd b) = false → exec (x.1 a b off) s = .next s.retire) ∧
    (x.2 (s.rd a) (s.rd b) = true → ¬Claims.NotAHead s t → ∃ u, exec (x.1 a b off) s = .next u ∧ Claims.Transferred s u t) ∧
    (x.2 (s.rd a) (s.rd b) = true → Claims.NotAHead s t → exec (x.1 a b off) s = .next (s.takeTrap ⟨3, t, 0, none⟩ s.co.pc))

/-- R103, R20, R21: J, JAL and JR go to their targets; JAL and JR write the successor to s[D], JR after it has read s[A]. A
target that is no head leaves the link unwritten and takes cause 3 at the instruction. -/
def Sys2Proof.Claims.jumpsLinkAndGo : Prop :=
  ∀ (d a : Reg) (imm : BitVec 27) (s : State),
    let t := s.co.pc + imm.signExtend 64 * 2
    let r := s.rd a + imm.signExtend 64
    ((¬Claims.NotAHead s t → ∃ u, exec (.j imm) s = .next u ∧ Claims.Transferred s u t) ∧
      (Claims.NotAHead s t → exec (.j imm) s = .next (s.takeTrap ⟨3, t, 0, none⟩ s.co.pc))) ∧
    (s.Free [] [d] →
      (¬Claims.NotAHead s t → ∃ u, exec (.jal d imm) s = .next u ∧ Claims.Transferred (s.wr d s.co.next) u t) ∧
      (Claims.NotAHead s t → exec (.jal d imm) s = .next (s.takeTrap ⟨3, t, 0, none⟩ s.co.pc))) ∧
    (s.Free [a] [d] →
      (¬Claims.NotAHead s r → ∃ u, exec (.jr d a imm) s = .next u ∧ Claims.Transferred (s.wr d s.co.next) u r) ∧
      (Claims.NotAHead s r → exec (.jr d a imm) s = .next (s.takeTrap ⟨3, r, 0, none⟩ s.co.pc)))

/-- R102, R103, R20, R21: the conditional branches, and J, JAL and JR.
The model's own reading or choice in it: log 22 (a loop that ends clears the whole of lstate). -/
def Obligations.BranchesAndJumps : Prop := Claims.branchesGoWhereTheySay ∧ Claims.jumpsLinkAndGo

/-- R104, R105: LOOP clears the index of every level and starts the body at its first head with the loop state of its fields,
or, where a level has no trips, passes over the body; inside an active loop it is illegal. -/
def Sys2Proof.Claims.loopStarts : Prop :=
  ∀ (x : BitVec 3) (d p st : Reg) (len : BitVec 6) (s : State), (Instr.loop x d p st len).wf = true →
    s.Free (loopCounts x d) (loopCounts x d) →
    (lDepth s.co.lstate ≠ 0 →
      exec (.loop x d p st len) s = .next (s.takeTrap ⟨1, instrVal (.loop x d p st len), 0, none⟩ s.co.pc)) ∧
    (lDepth s.co.lstate = 0 → ∃ t, exec (.loop x d p st len) s = .next t ∧
      (∀ r, (r ∈ loopCounts x d → (t.rd r).extractLsb' 0 32 = 0 ∧ (t.rd r).extractLsb' 32 32 = (s.rd r).extractLsb' 32 32) ∧
        (r ∉ loopCounts x d → t.rd r = s.rd r)) ∧
      t.mem = s.mem ∧ (∀ b, t.seen b = s.seen b) ∧ t.co.fmode = s.co.fmode ∧
      ((∃ r ∈ loopCounts x d, (s.rd r).extractLsb' 32 32 = 0) →
        t.co.pc = s.skip (len.toNat + 1) s.co.pc ∧ lDepth t.co.lstate = 0) ∧
      ((∀ r ∈ loopCounts x d, (s.rd r).extractLsb' 32 32 ≠ 0) →
        t.co.pc = s.co.next ∧ lDepth t.co.lstate = x.toNat + 1 ∧ lBody t.co.lstate = len.toNat ∧ lPos t.co.lstate = 0 ∧
        lCnt t.co.lstate = d.toNat ∧ lPtr t.co.lstate = p.toNat ∧ lStr t.co.lstate = st.toNat ∧ lBoff t.co.lstate = 0))

/-- R105: what the end of a pass does when the last head of the body falls through, where it meets no failed load's mark, no error in a
register and no first head that is none. The lowest level with a pass left takes
its next index and adds its stride to the pointer, every lower level starts again, and the body's first head is next; where
no level has one, all indices are 0, the loop ends and the successor is next. -/
def Sys2Proof.Claims.loopAdvances : Prop :=
  ∀ s : State, s.co.looping = true → lstateOk s.co.lstate = true → s.co.loopFree = true →
    lPos s.co.lstate + 1 = lBody s.co.lstate → s.loopMeets = false →
    let c := s.co
    let t := s.retire.co
    let p : Reg := BitVec.ofNat 5 (lPtr c.lstate)
    (∀ k, k < lDepth c.lstate → Claims.Advances c k → (∀ j, j < k → ¬Claims.Advances c j) →
      t.pc = c.pc + lBoff c.lstate ∧ lDepth t.lstate = lDepth c.lstate ∧ lPos t.lstate = 0 ∧ lBoff t.lstate = 0 ∧
      t.rd (Claims.counter c k) = c.rd (Claims.counter c k) + 1 ∧
      (∀ j, j < k → (t.rd (Claims.counter c j)).extractLsb' 0 32 = 0 ∧
        (t.rd (Claims.counter c j)).extractLsb' 32 32 = (c.rd (Claims.counter c j)).extractLsb' 32 32) ∧
      (p ≠ 0 → let r : Reg := BitVec.ofNat 5 (lStr c.lstate + k)
        t.rd p = c.rd p + (if r = p then c.rd p else t.rd r)) ∧
      ∀ r, r ≠ p → (∀ j, j ≤ k → r ≠ Claims.counter c j) → t.rd r = c.rd r) ∧
    ((∀ j, j < lDepth c.lstate → ¬Claims.Advances c j) →
      t.pc = s.co.next ∧ t.lstate = 0 ∧
      (∀ j, j < lDepth c.lstate → (t.rd (Claims.counter c j)).extractLsb' 0 32 = 0 ∧
        (t.rd (Claims.counter c j)).extractLsb' 32 32 = (c.rd (Claims.counter c j)).extractLsb' 32 32) ∧
      ∀ r, (∀ j, j < lDepth c.lstate → r ≠ Claims.counter c j) → t.rd r = c.rd r)

/-- R104 to R106: LOOP, and the end of each pass of its body.
The model's own reading or choice in it: log 22. -/
def Obligations.LoopRuns : Prop := Claims.loopStarts ∧ Claims.loopAdvances

/-- R216: what trap entry writes. The chunk commits first; then `epc`, `ecause`, `etval` and `estat` are written, the mode is
kernel, the PC is `tvec`, and an active loop is frozen; every general, vector and mask register is as the commit left it.
R218: where `tvec` fails R21 the slot halts instead, its registers saved whole with `epc`, `ecause` and `etval` as the trap
set them and the mode of before, and nothing runs on the core.
The model's own reading or choice in it: logs 5 and 22. -/
def Obligations.TrapEntryWritesTheTrapRegisters : Prop :=
  (∀ (s : State) (cause info k : Nat) (val epc : Word), s.MayCommit → s.haltWaits = false → s.cur.running = some k →
    ((s.commitNow s.focus).reportTrap ⟨cause, val, info, none⟩).fate s.focus .kernel s.co.tvec ≠ .ok →
    let t := s.takeTrap ⟨cause, val, info, none⟩ epc
    t.focus = s.focus ∧ t.cur.running = none ∧ (t.cur.slot k).st = .halted ∧ (t.cur.slot k).full = true ∧
    (t.cur.slot k).co.epc = epc ∧ (t.cur.slot k).co.ecause = BitVec.ofNat 6 cause ∧ (t.cur.slot k).co.etval = val ∧
    (t.cur.slot k).co.mode = s.co.mode ∧ (t.cur.slot k).co.tvec = s.co.tvec) ∧
  ∀ (s : State) (cause info : Nat) (val epc : Word), Claims.Enters s ⟨cause, val, info, none⟩ →
    let t := s.takeTrap ⟨cause, val, info, none⟩ epc
    let c := s.cur.chunk.compl.foldl (fun c x => c.wr x.1 x.2) s.co
    t.co.epc = epc ∧ t.co.ecause = BitVec.ofNat 6 cause ∧ t.co.etval = val ∧ t.co.estatPm = (s.co.mode == .kernel) ∧
    t.co.info = BitVec.ofNat 58 info ∧ t.co.mode = .kernel ∧ t.co.pc = s.co.tvec ∧
    t.co.lfrz = (s.co.lfrz || lDepth s.co.lstate != 0) ∧ t.co.lstate = s.co.lstate ∧
    (∀ r, t.rd r = c.rd r) ∧ t.co.v = s.co.v ∧ t.co.m = s.co.m ∧ t.co.g = s.co.g ∧ t.co.tvec = s.co.tvec ∧
    t.co.istate = s.co.istate ∧ t.co.vstart = s.co.vstart ∧ t.co.vl = s.co.vl ∧ t.co.vtype = s.co.vtype ∧
    t.co.fmode = s.co.fmode ∧ t.co.seed = s.co.seed ∧ t.co.sbase = s.co.sbase ∧ t.co.quantum = s.co.quantum ∧
    t.co.done = s.co.done ∧ t.co.cid = s.co.cid ∧ t.co.asid = s.co.asid ∧ t.co.tenant = s.co.tenant ∧
    (s.PlainChunk s.cur.chunk → t.mem = memPuts s.mem s.cur.chunk.writes)

/-- R109, R110, R111, R83: TRAP enters its handler with its code and its successor in `epc`, BRK with its own address; an
encoding that is no instruction takes cause 1 with the encoding in `etval`; NOP only goes on. -/
def Sys2Proof.Claims.trapBrkNopAndIllegal : Prop :=
  ∀ (code : BitVec 16) (h : BitVec 16) (t : Word) (s : State),
    exec .nop s = .next s.retire ∧
    exec .brk s = .next (s.takeTrap ⟨13, 0, 0, none⟩ s.co.pc) ∧
    exec (.illegalInstruction h t) s =
      .next (s.takeTrap ⟨1, if h.extractLsb' 14 2 = 3 then h.setWidth 64 else h.setWidth 64 ||| t <<< 16, 0, none⟩ s.co.pc) ∧
    (s.MayCommit → s.haltWaits = false → s.retire.co.lpend = false →
      exec (.trap code) s = .next (s.retire.takeTrap ⟨14, code.setWidth 64, 0, none⟩ s.retire.co.pc))

/-- R110, R106, R22: ERET in user mode takes cause 12; in kernel mode it takes cause 3 at itself where `epc` is no head in
the mode that it would return to; else mode and PC come back from `estat` and `epc`, a frozen loop goes on, no other register of the
coroutine changes, whichever, and the chunk ends. An `lstate` that breaks R75's rules is noted for the next head. -/
def Sys2Proof.Claims.eretReturns : Prop :=
  ∀ s : State,
    (s.co.mode = .user → exec .eret s = .next (s.takeTrap ⟨12, instrVal .eret, 0, none⟩ s.co.pc)) ∧
    (s.co.mode = .kernel →
      let m := if s.co.estatPm then Mode.kernel else .user
      (s.fate s.focus m s.co.epc = .misaligned → exec .eret s = .next (s.takeTrap ⟨3, s.co.epc, 0, none⟩ s.co.pc)) ∧
      (s.fate s.focus m s.co.epc ≠ .misaligned → s.MayCommit → s.cur.chunk.compl = [] →
        ∃ t, exec .eret s = .next t ∧
          t.co = { s.co with mode := m, pc := s.co.epc, lfrz := false, lbad := !lstateOk s.co.lstate } ∧ (s.PlainChunk s.cur.chunk → t.mem = memPuts s.mem s.cur.chunk.writes) ∧
          t.cur.chunk = Chunk.fresh t.co))

/-- R83, R106, R109 to R111: TRAP, BRK, NOP, encodings that are no instruction, and ERET.
The model's own reading or choice in it: log 22. -/
def Obligations.TrapsAndReturn : Prop := Claims.trapBrkNopAndIllegal ∧ Claims.eretReturns

/-- R73, R108: the fates of a control register access, in the order of the checks: a class out of reach, a number that is
not implemented, a register that the mode may not write, all before any register is looked at (R83), and a value that breaks the
register's rules. Each trap leaves the register as it was, with its number in `etval`. -/
def Sys2Proof.Claims.csrChecksInOrder : Prop :=
  ∀ (d a : Reg) (csr : BitVec 11) (s : State),
    let trap := fun cause => Host.Outcome.next (s.takeTrap ⟨cause, csr.setWidth 64, 0, none⟩ s.co.pc)
    (¬Claims.csrReached s csr.toNat → exec (.csrr d csr) s = trap 12) ∧
    (Claims.csrReached s csr.toNat → s.csrRead csr.toNat = none → exec (.csrr d csr) s = trap 1) ∧
    ∀ x ∈ Claims.csrWrites,
      (¬Claims.csrReached s csr.toNat → exec (x.1 d a csr) s = trap 12) ∧
      (Claims.csrReached s csr.toNat →
        (s.csrRead csr.toNat = none → exec (x.1 d a csr) s = trap 1) ∧
        ∀ old, s.csrRead csr.toNat = some old →
          (csr.toNat ∈ Claims.csrReadOnly → exec (x.1 d a csr) s = trap 1) ∧
          (csr.toNat ∈ Claims.csrKernelWritten → s.co.mode = .user → exec (x.1 d a csr) s = trap 12) ∧
          (csr.toNat ∉ Claims.csrReadOnly → (csr.toNat ∈ Claims.csrKernelWritten → s.co.mode = .kernel) →
            s.Free [a] [d] → s.cur.vq = [] → s.co.csrAccepts csr.toNat (x.2 old (s.rd a)) = false → exec (x.1 d a csr) s = trap 1))

/-- R108, R74, R75: CSRR writes the register's value to s[D] inside its chunk; one of the flags waits for an empty vector queue (R118). CSRW, CSRS and CSRC write the old value to
s[D], put the new value's bits into the fields that can be written (CEIL of `prio` stays, reserved bits read as zero), leave
every other control register, end their chunk and leave every general register but s[D]. -/
def Sys2Proof.Claims.csrReadsAndWrites : Prop :=
  ∀ (d a : Reg) (csr : BitVec 11) (s : State) (old : Word), Claims.csrReached s csr.toNat → s.csrRead csr.toNat = some old →
    (s.Free [] [d] → (csr.toNat ∈ [0x008, 0x009] → s.cur.vq = []) → exec (.csrr d csr) s = .next (s.wr d old).retire) ∧
    ∀ x ∈ Claims.csrWrites, ∀ mask, (csr.toNat, mask) ∈ Claims.csrMask → s.Free [a] [d] → s.MayCommit →
      (csr.toNat ∈ Claims.csrKernelWritten → s.co.mode = .kernel) →
      s.co.csrAccepts csr.toNat (x.2 old (s.rd a)) = true → s.co.looping = false → s.cur.chunk.compl = [] →
      ∃ t, exec (x.1 d a csr) s = .next t ∧ t.focus = s.focus ∧
        t.csrRead csr.toNat = some (x.2 old (s.rd a) &&& mask ||| (if csr.toNat = 0x022 then old &&& 0x30 else 0)) ∧
        (∀ r, t.rd r = if r = d ∧ d ≠ 0 then old else s.rd r) ∧ t.co.pc = s.co.next ∧ t.co.mode = s.co.mode ∧
        t.co.v = s.co.v ∧ t.co.m = s.co.m ∧ (s.PlainChunk s.cur.chunk → t.mem = memPuts s.mem s.cur.chunk.writes) ∧
        t.cur.chunk = Chunk.fresh t.co ∧ ∀ n ∈ Claims.csrMask, n.1 ≠ csr.toNat → ¬(n.1 ∈ [0x008, 0x009] ∧ csr.toNat ∈ [0x008, 0x009]) →
          t.csrRead n.1 = s.csrRead n.1

/-- R74, R76, R108: either mode reads and writes the counters pmc0 to pmc15 whole. A counter that counts neither chunks that commit nor chunks
that commit in sole mode holds after the write what has been written; the other ones, every other control register and every general
register but s[D] stay. -/
def Sys2Proof.Claims.countersReadAndWrite : Prop :=
  let quiet := fun (s : State) (i : Fin 16) => s.cur.pmcsel[i].extractLsb' 0 8 ≠ 1 ∧ s.cur.pmcsel[i].extractLsb' 0 8 ≠ 3
  ∀ (d a : Reg) (i : Fin 16) (s : State), let csr := BitVec.ofNat 11 (0x060 + i.val)
    s.csrRead csr.toNat = some s.cur.pmc[i] ∧
    (s.Free [] [d] → exec (.csrr d csr) s = .next (s.wr d s.cur.pmc[i]).retire) ∧
    ∀ x ∈ Claims.csrWrites, s.Free [a] [d] → s.MayCommit → s.co.looping = false → s.cur.chunk.compl = [] → quiet s i →
      ∃ t, exec (x.1 d a csr) s = .next t ∧ t.csrRead csr.toNat = some (x.2 s.cur.pmc[i] (s.rd a)) ∧
        (∀ j, j ≠ i → quiet s j → t.csrRead (0x060 + j.val) = s.csrRead (0x060 + j.val)) ∧
        (∀ n ∈ Claims.csrMask, t.csrRead n.1 = s.csrRead n.1) ∧
        (∀ r, t.rd r = if r = d ∧ d ≠ 0 then s.cur.pmc[i] else s.rd r) ∧ t.co.pc = s.co.next ∧ t.co.mode = s.co.mode ∧
        (s.PlainChunk s.cur.chunk → t.mem = memPuts s.mem s.cur.chunk.writes)

/-- R73 to R76, R108: which accesses of control registers trap, and what the others do, the counters among them. -/
def Obligations.ControlRegisterAccesses : Prop :=
  Claims.csrChecksInOrder ∧ Claims.csrReadsAndWrites ∧ Claims.countersReadAndWrite

/-! ### Coroutines, tokens, mailboxes and parking (R107, R194 to R233, R341 to R354) -/

namespace Sys2Proof.Claims

/-- Nothing runs on the core any more, and the slot has been freed: its tag has advanced (R195, R215). -/
def SlotFreed (s t : State) (k : Nat) : Prop :=
  t.focus = s.focus ∧ t.cur.running = none ∧ (t.cur.slot k).st = .free ∧ (t.cur.slot k).gen = (s.cur.slot k).gen + 1

/-- The coroutine of slot k has stopped in an await: nothing runs on the core, its slot waits for w with the registers of its
live mask and the pending ones, past the instruction (R194, R196, R209). -/
def Suspended (u t : State) (k : Nat) (live : Word) (w : Wait) : Prop :=
  t.focus = u.focus ∧ t.cur.running = none ∧
  ((t.cur.slot k).st = .suspended ∨ (t.cur.slot k).st = .spilled) ∧ (t.cur.slot k).wait = w ∧ (t.cur.slot k).full = false ∧
  (t.cur.slot k).co.pc = u.retire.co.pc ∧ (t.cur.slot k).co.pend = u.co.pend ∧
  (∀ r : Reg, r ≠ 0 → live.getLsbD r.toNat = true → (t.cur.slot k).co.rd r = u.retire.co.rd r) ∧
  (∀ r : Reg, live.getLsbD r.toNat = false → u.co.isPend r = false → u.ext.cpend = [] → (t.cur.slot k).co.rd r = 0)

/-- raise(w, a) on the fields of a token word, and whether it fires (R225). -/
def raised (w : Word) (a : Int) : Word × Bool :=
  if (w.extractLsb' 0 32).toInt < a then
    (w.extractLsb' 49 15 ++ 1#1 ++ (w.extractLsb' 32 16 + 1) ++ BitVec.ofInt 32 (min (2 ^ 31 - 1) a), true)
  else (w, false)

/-- signal(w, a) on the fields of a token word, and whether it fires: a raise in HW mode, else a saturating sum, with OVR
where it ends below zero, that fires at most once on its way to zero (R223, R225). -/
def signalled (w : Word) (a : Int) : Word × Bool :=
  if w.getLsbD 51 then raised w a
  else
    let cnt := (w.extractLsb' 0 32).toInt
    let new := max (-2 ^ 31) (min (2 ^ 31 - 1) (cnt + a))
    let ovr := w.getLsbD 49 || (decide (a < 0) && decide (new < 0))
    let fires := decide (0 < cnt) && decide (new ≤ 0) && !w.getLsbD 48
    (w.extractLsb' 50 14 ++ BitVec.ofBool ovr ++ BitVec.ofBool (w.getLsbD 48 || fires) ++
      (w.extractLsb' 32 16 + if fires then 1 else 0) ++ BitVec.ofInt 32 new, fires)

/-- arm(w, op): HW and STRICT of the operand, GEN of the word, FIRED and OVR clear, CNT of the operand (R225). -/
def armed (w op : Word) : Word :=
  0#12 ++ op.extractLsb' 51 1 ++ op.extractLsb' 50 1 ++ 0#2 ++ w.extractLsb' 32 16 ++ op.extractLsb' 0 32

/-- The coroutine that runs in s as the sender of a token operation, which waits for the posted writes under way in u, after its commit
(R264). -/
def releasing (s u : State) : Sender := .coroutine s.who ⟨s.co.tenant, 0, u.ext.unacked⟩

end Sys2Proof.Claims

/-- R107, R24, R111, R373: FENCE.cluster and FENCE.package complete, end their chunk and drop the core's fetched lines;
FENCE.pod without a bank to probe also clears the touched set, with banks it probes each and waits, and after their echoes
goes on or takes cause 15; FENCET leaves s[D] pending on its probes; SNAP ends its chunk and triggers where it is enabled.
The model's own reading or choice in it: logs 21 and 23. -/
def Obligations.FencesAndSnap : Prop :=
  ∀ (d : Reg) (s : State),
    let drop := fun t : State => t.setCur { t.cur with line := none, ahead := [] }
    (s.MayCommit →
      exec .fenceCluster s = .next (drop (s.ended s)) ∧ exec .fencePackage s = .next (drop (s.ended s)) ∧
      exec .snap s = .next (if (s.pkg (pkgOf s.focus)).snap.tenants.getLsbD s.co.tenant.toNat
        then (s.ended s).trigger (pkgOf s.focus) 3 else s.ended s) ∧
      (s.ext.fence = none → ∃ u t, s.commit s.focus = some u ∧ exec .fencePod s = .next t ∧
        (u.probes = [] → t.ext.touched = [] ∧ t.ext.wide = false ∧ t.co = (u.setExt { u.ext with touched := [], wide := false }).passed ∧
          t.cur.line = none ∧ t.mem = u.mem) ∧
        (u.probes ≠ [] → t.co = u.co ∧ t.ext.fence = some u.probes ∧
          ∀ p ∈ u.probes, Event.fenceProbeEcho u.who 0 p.1 p.2 ∈ t.flight))) ∧
    (∀ x l, s.ext.fence = some (x :: l) → exec .fencePod s = .next s.stall) ∧
    (s.ext.fence = some [] → s.ext.lost = [] → ∃ t, exec .fencePod s = .next t ∧ t.ext.touched = [] ∧ t.ext.wide = false ∧
      t.ext.fence = none ∧ t.co = (s.setExt { s.ext with touched := [], wide := false, fence := none }).passed ∧ t.mem = s.mem) ∧
    (∀ p, s.ext.fence = some [] → s.ext.lost = [p] → p ∈ s.ext.touched.map (·.1) → s.MayCommit → s.haltWaits = false →
      ∃ u : State, exec .fencePod s = .next (u.takeTrap ⟨15, BitVec.ofNat 64 p, 0, none⟩ s.co.pc) ∧ u.co = s.co ∧ u.mem = s.mem) ∧
    (s.Free [] [d] → s.MayCommit → ∃ u v, u = s.ended (s.setCo (s.co.setPend d)) ∧ exec (.fencet d) s = .next v ∧
      (u.probes ≠ [] → v.co = u.co ∧ v.ext.fencets = u.ext.fencets ++ [(d, u.probes, none)] ∧
        ∀ p ∈ u.probes, Event.fenceProbeEcho s.who d p.1 p.2 ∈ v.flight) ∧
      (u.probes = [] → d ≠ 0 → s.co.looping = false → s.cur.running ≠ none → u.ext.lost = [] →
        v.rd d = 0x8000000000000000 ∧ v.co.isPend d = false ∧ v.ext.touched = [] ∧ v.ext.wide = false))

/-- R205, R215: YIELD goes on with its successor unless another coroutine of its class or a higher one can run, and then
leaves the core with a full context; EXIT frees its slot and sends the signals of s[D] and of DONE, each a release. R212, R213, R264, R266:
SPAWN ends its chunk with s[D] pending and sends its request, which waits for the posted writes before it; one that names a slot of another
package also fences: it clears the touched set, probes its banks, and fails where a probed package has lost a write.
The model's own reading or choice in it: logs 5 and 23. -/
def Obligations.YieldExitAndSpawn : Prop :=
  (∀ (d a b c e : Reg) (y : BitVec 7) (s u : State), s.Free [a, b, c, e] [d] → s.MayCommit → u = s.ended (s.setCo (s.co.setPend d)) →
    let far := (y.extractLsb' 0 3).toNat = 1 ∧ pkgOf (cidCore ((s.rd e).extractLsb' 0 32)) ≠ pkgOf u.focus
    (¬far → exec (.spawn d a b c e y) s =
      .next (u.post (.spawnRequest (Claims.spawned s d a b c e y u.ext.unacked [] false)))) ∧
    (far → ∃ t, exec (.spawn d a b c e y) s = .next t ∧ t.co = u.co ∧ t.mem = u.mem ∧ t.ext.touched = [] ∧ t.ext.wide = false ∧
      t.flight = u.flight ++ [.spawnRequest (Claims.spawned s d a b c e y u.ext.unacked u.probes
        (u.ext.lost.any fun p => u.ext.wide || u.probes.any (·.1 == p)))])) ∧
  ∀ (d : Reg) (s t : State) (k : Nat), s.cur.vq = [] → s.ownCommit = some t → s.cur.running = some k →
    (s.retire.co.lpend = false → t.cur.contended = false → exec .yield s = .next t.settle) ∧
    (s.retire.co.lpend = false → t.cur.contended = true → s.ext.vpend = [] → ∃ u, exec .yield s = .next u ∧
      u.focus = s.focus ∧ u.cur.running = none ∧ (u.cur.slot k).st = .refilling ∧ (u.cur.slot k).full = true ∧
      (u.cur.slot k).co = t.retire.co ∧ (u.cur.slot k).wait = .nothing) ∧
    (s.Free [d] [] → s.doneWaits = false →
      (d = 0 → ∃ u, exec (.exit d) s = .next u ∧ Claims.SlotFreed s u k) ∧
      ∀ v c pa, d ≠ 0 → s.wordTarget .store false (s.rd d) = .ok v pa → v.ownCommit = some c →
        ∃ u, exec (.exit d) s = .next u ∧ Claims.SlotFreed s u k ∧
          Event.tokenSignalAtHome (.coroutine c.who ⟨c.co.tenant, 0, c.ext.unacked⟩) pa (-1) ∈ u.flight)

/-- R209, R196: AWAIT, AWAITB and AWAITC commit their chunk, once however often they are tried again; where their condition holds they go on with the successor, else
the coroutine stops with its live mask. AWAITC with STRICT and OVR set takes cause 10. -/
def Sys2Proof.Claims.awaitsOnThisCore : Prop :=
  ∀ (d : Reg) (x : BitVec 3) (live : Word) (s t : State) (k : Nat), s.cur.vq = [] → s.ownCommit = some t →
    s.cur.running = some k → s.retire.co.lpend = false →
    (t.co.isPend d = false → exec (.await d live) s = .next t.settle) ∧
    (t.ext.sealedB.length ≤ d.toNat → exec (.awaitb d live) s = .next t.settle) ∧
    (∀ w, w = memWord t.mem (cellPa s.focus (x.toNat * 32 + d.toNat)) →
      ((w.extractLsb' 0 32).toInt ≤ 0 →
        (¬(w.getLsbD 50 = true ∧ w.getLsbD 49 = true) → exec (.awaitc x d live) s = .next t.settle) ∧
        (w.getLsbD 50 = true → w.getLsbD 49 = true → exec (.awaitc x d live) s =
          .next (t.takeTrap ⟨10, BitVec.ofNat 64 (x.toNat * 32 + d.toNat), 0, none⟩ s.co.pc))) ∧
      (0 < (w.extractLsb' 0 32).toInt → s.ext.vpend = [] → ∃ u, exec (.awaitc x d live) s = .next u ∧
        Claims.Suspended t u k live (.cell (x.toNat * 32 + d.toNat)))) ∧
    (t.co.isPend d = true → s.ext.vpend = [] → ∃ u, exec (.await d live) s = .next u ∧ Claims.Suspended t u k live (.register d)) ∧
    (d.toNat < t.ext.sealedB.length → s.ext.vpend = [] → ∃ u, exec (.awaitb d live) s = .next u ∧
      Claims.Suspended t u k live (.batches d.toNat))

/-- R209, R210, R230: AWAITW and AWAITG commit their chunk and ask the token word's home for a snapshot, with what they wait for
and their own address kept in the slot; the core issues nothing until it answers. -/
def Sys2Proof.Claims.awaitsOnTokenWords : Prop :=
  ∀ (d : Reg) (live : Word) (s u t : State) (pa : Pa) (k : Nat), s.cur.vq = [] → s.cur.running = some k →
    s.wordTarget .load false (s.rd d) = .ok u pa → u.ownCommit = some t → s.retire.co.lpend = false →
    ∀ i w, (i = Instr.awaitw d live ∧ w = Wait.count pa 0 (s.rd d) ∧ s.Free [d] []) ∨
        (i = Instr.awaitg d live ∧ w = Wait.generation pa ((s.rd (d + 1)).extractLsb' 0 16) (s.rd d) ∧ s.Free [d, d + 1] []) →
      ∃ v, exec i s = .next v ∧ v.focus = s.focus ∧ v.co = t.co ∧ v.mem = t.mem ∧ (v.cur.slot k).wait = w ∧
        (v.cur.slot k).live = live ∧ (v.cur.slot k).head = s.co.pc ∧ Event.tokenSnapshot s.who ∈ v.flight ∧
        v.stalled.contains s.focus = true

/-- R196, R209 to R211, R230: the await instructions, on what is of this core and on token words. -/
def Obligations.Awaits : Prop := Claims.awaitsOnThisCore ∧ Claims.awaitsOnTokenWords

/-- R226, R227, R264: TARM, TSIG, THW and TPOLL end their chunk and send their operation to the word's home; TARMC, TPOLLC
and TSIGC on a cell of their own core act on it at the commit, with the words that R225 gives. An arm, a signal or a raise is a release: it
waits for the posted writes under way at the commit, a TSIGC on its own core's cell as well. -/
def Obligations.TokenCommands : Prop :=
  ∀ (d a b : Reg) (s u : State) (pa : Pa), s.MayCommit →
    (s.Free [a, b] [] → s.wordTarget .store false (s.rd a) = .ok u pa →
      exec (.tarm a b) s = .next ((s.ended u).send pa (.tokenArmAtHome (Claims.releasing s (s.ended u)) pa (s.rd b))) ∧
      exec (.tsig a b) s = .next ((s.ended u).send pa
        (.tokenSignalAtHome (Claims.releasing s (s.ended u)) pa ((s.rd b).extractLsb' 0 32).toInt)) ∧
      exec (.thw a b) s = .next ((s.ended u).send pa
        (.tokenRaiseAtHome (Claims.releasing s (s.ended u)) pa ((s.rd b).extractLsb' 0 32).toInt))) ∧
    (s.Free [a] [d] → s.wordTarget .load false (s.rd a) = .ok u pa →
      exec (.tpoll d a) s = .next ((s.ended (u.setCo (u.co.setPend d))).send pa
        (.remoteLoadAtHome s.who d [(pa, 8, [])] false (s.rd a) s.co.tenant))) ∧
    (s.Free [a] [d] → ∀ w : State, w = s.ended (s.setCo (s.co.setPend d)) → ∃ t, exec (.tpollc d a) s = .next t ∧ t.mem = w.mem ∧
      (d ≠ 0 → s.cur.running ≠ none → s.co.looping = false → t.co.isPend d = false ∧
        t.rd d = memWord w.mem (cellPa s.focus ((s.rd a).extractLsb' 0 8).toNat))) ∧
    (s.Free [a, b] [] →
      (exec (.tarmc a b) s = .next ((s.ended s).tokenOp (s.ended s).sender (cellPa s.focus ((s.rd a).extractLsb' 0 8).toNat)
        fun w => (Claims.armed w (s.rd b), false))) ∧
      (s.cellAllowed (pkgOf s.focus) s.co.tenant (s.rd a) = false →
        exec (.tsigc a b) s = .next (s.takeTrap ⟨6, s.rd a, 0, none⟩ s.co.pc)) ∧
      (s.cellAllowed (pkgOf s.focus) s.co.tenant (s.rd a) = true →
        ∀ n : Int, n = ((s.rd b).extractLsb' 0 32).toInt →
        (targetCore (s.rd a) = s.focus → (s.ended s).senderReleased (s.ended s).sender = true → exec (.tsigc a b) s =
          .next ((s.ended s).tokenOp (s.ended s).sender (targetCell (s.rd a)) fun w => Claims.signalled w n)) ∧
        (targetCore (s.rd a) ≠ s.focus ∨ (s.ended s).senderReleased (s.ended s).sender = false → exec (.tsigc a b) s =
          .next ((s.ended s).send (targetCell (s.rd a)) (.tokenSignalAtHome (s.ended s).sender (targetCell (s.rd a)) n)))))

/-- R223, R225, R264: at its home an arm, a signal or a raise replaces the token word as R225 defines, in one step that writes
no other byte; where a coroutine or a unit of the package has sent it, its word has a home and is whole, and no park entry watches
it (a write that a watch sees also arms a promotion token, R350); a coroutine's operation waits for the posted writes before it. (A cell that fires
also marks its evicted waiters in their save areas, R203: cores with evicted slots are left to that rule.) -/
def Obligations.TokenOperationsAtHome : Prop :=
  ∀ (pa : Pa) (op : Word) (n : Int) (s : State), (s.pkg (paPkg pa)).on = true → s.homeOf pa ≠ .nowhere → s.failing pa = false →
    Memory.wf s.mem = true → -2 ^ 31 ≤ n → n < 2 ^ 31 → (∀ x ∈ (s.pkg (paPkg pa)).watches, x.1 ≠ pa) →
    (∀ c, s.region pa = .cell c → ∀ k, ((s.core (paPkg pa * 1024 + c)).slot k).st ≠ .evicted) →
    ∀ x : Sender, s.senderReleased x = true → senderPkg x = paPkg pa →
      ∀ i w, (i, w) ∈ [(Instr.tokenArmAtHome x pa op, Claims.armed (memWord s.mem pa) op),
          (.tokenSignalAtHome x pa n, (Claims.signalled (memWord s.mem pa) n).1),
          (.tokenRaiseAtHome x pa n, (Claims.raised (memWord s.mem pa) n).1)] →
        ∃ t, exec i s = .next t ∧ memWord t.mem pa = w ∧ ∀ a, a < pa ∨ pa + 8 ≤ a → memGet t.mem a = memGet s.mem a

/-- R230, R231, R232, R195: a waiter whose slot still has its occupant is made runnable; a snapshot lets the coroutine go on where its
condition holds and otherwise stops it and registers; a registration goes on, enters the waiter in the home's table, or, where that is full,
is refused and polls again later. Each read of the word notes the errors that it corrects (R365).
The model's own reading or choice in it: log 13. -/
def Obligations.WaitersAndSnapshots : Prop :=
  ∀ (who : Who) (s : State),
    let c := s.core who.core
    let x := c.slot who.slot
    (x.gen = who.gen → exec (.waiterWake who) s = .next (s.signalSlot who.core who.slot)) ∧
    (x.gen ≠ who.gen → exec (.waiterWake who) s = .next s ∧ exec (.tokenSnapshot who) s = .next s ∧
      exec (.tokenRegistration who) s = .next s) ∧
    exec (.tokenRepoll who) s = .next (s.post (.tokenRegistration who)) ∧
    (∀ pa g va, x.gen = who.gen → x.wait.token = some (pa, g, va) → (s.pkg (paPkg pa)).on = true → s.readBusy pa 8 = false →
      s.failing pa = false → pkgOf who.core = paPkg pa →
      (c.running = some who.slot → x.wait.holds (memWord s.mem pa) = true →
        (x.wait.isCount && tokOverrun (memWord s.mem pa)) = false →
        ∃ t u : State, exec (.tokenSnapshot who) s = .next t ∧ t.focus = who.core ∧ t.co = u.passed ∧ u.co = c.co ∧
          u.focus = who.core ∧ (t.cur.slot who.slot).wait = .nothing ∧ t.mem = s.mem) ∧
      (c.running = some who.slot → x.wait.holds (memWord s.mem pa) = false → (∀ p v d dc t n, x.wait ≠ .strip p v d dc t n) →
        c.vq = [] → c.ext.vpend = [] → ∃ t, exec (.tokenSnapshot who) s = .next t ∧ (t.core who.core).running = none ∧
          Event.tokenRegistration who ∈ t.flight) ∧
      (x.st = .suspended →
        (x.wait.goes (memWord s.mem pa) = true →
          exec (.tokenRegistration who) s = .next ((s.noteReads (wordBytes pa)).signalSlot who.core who.slot)) ∧
        (x.wait.goes (memWord s.mem pa) = false → s.waitersFull pa = true →
          exec (.tokenRegistration who) s = .next ((s.noteReads (wordBytes pa)).post (.tokenRepoll who))) ∧
        (x.wait.goes (memWord s.mem pa) = false → s.waitersFull pa = false → ∃ t, exec (.tokenRegistration who) s = .next t ∧
          (t.pkg (paPkg pa)).waiters = (s.pkg (paPkg pa)).waiters ++ [⟨pa, who, x.wait⟩])))

/-- R219: MSEND reads its message in the chunk and posts it with s[D] pending; MRECV takes the oldest message into memory and
reports its kind, slot and sender in s[D], or writes 0; MHAND designates a handler on its own core, or none. The mailbox and the handler
change at the commit.
The model's own reading or choice in it: log 28. -/
def Obligations.MailboxInstructions : Prop :=
  ∀ (d a b : Reg) (s : State), s.MayCommit →
    let pop := fun t : State => t.setCur { t.cur with mailbox := t.cur.mailbox.drop 1 }
    let designate := fun (t : State) h => t.setCur { t.cur with handler := h }
    (s.Free [a, b] [d] → ∀ u segs v bs, s.messageTarget .load (s.rd b) = .ok u segs → u.readSegs (s.rd b) segs = .ok v bs →
      exec (.msend d a b) s = .next ((s.ended (v.setCo (s.co.setPend d))).post (.mailboxArrival ((s.rd a).extractLsb' 0 32)
        ⟨0, ((s.rd a).extractLsb' 2 8).toNat, s.co.cid, BitVec.ofNat 512 (leNat bs)⟩ s.who d s.co.tenant))) ∧
    (s.Free [a] [d] →
      ((s.rd a).toNat % 64 ≠ 0 → exec (.mrecv d a) s = .next (s.takeTrap ⟨6, s.rd a, 0, none⟩ s.co.pc)) ∧
      ((s.rd a).toNat % 64 = 0 → s.cur.mailbox = [] → exec (.mrecv d a) s = .next (pop (s.ended (s.wr d 0)))) ∧
      (∀ h : BitVec 32 × Nat, (s.rd a).toNat % 64 = 0 → s.cur.mailbox ≠ [] → s.cur.handler = some h → h.1 ≠ s.co.cid →
        exec (.mrecv d a) s = .next (s.ended (s.wr d 0))) ∧
      ∀ m rest u segs v, (s.rd a).toNat % 64 = 0 → s.cur.mailbox = m :: rest →
        (∀ h : BitVec 32 × Nat, s.cur.handler = some h → h.1 = s.co.cid) → s.messageTarget .store (s.rd a) = .ok u segs →
        u.writeHere (s.rd a) segs (leBytes 64 m.data.toNat) = .ok v () →
        exec (.mrecv d a) s = .next (pop (s.ended (v.wr d
          (1#1 ++ 0#13 ++ BitVec.ofNat 2 m.kind ++ BitVec.ofNat 8 m.slot ++ 0#8 ++ m.sender))))) ∧
    (s.Free [a] [] →
      ((s.rd a).getLsbD 40 = false → exec (.mhand a) s = .next (designate (s.ended s) none)) ∧
      ((s.rd a).getLsbD 40 = true → cidCore ((s.rd a).extractLsb' 0 32) = s.focus → exec (.mhand a) s =
        .next (designate (s.ended s) (some ((s.rd a).extractLsb' 0 32, ((s.rd a).extractLsb' 32 8).toNat)))) ∧
      ((s.rd a).getLsbD 40 = true → cidCore ((s.rd a).extractLsb' 0 32) ≠ s.focus →
        exec (.mhand a) s = .next (s.takeTrap ⟨1, instrVal (.mhand a), 0, none⟩ s.co.pc)))

/-- R354, R370: at the commit BALLOC gives the first block of its core's cache, or 0; BFREE puts an aligned near block of the tenant back at
the front of the cache while there is room and no page of it is retired, and takes cause 6 for any other address. -/
def Sys2Proof.Claims.nearBlocks : Prop :=
  ∀ (d a : Reg) (s : State), s.MayCommit →
    (s.Free [] [d] → s.co.looping = false → s.cur.running ≠ none → ∃ t, exec (.balloc d) s = .next t ∧
      (let b := (s.ended (s.setCo (s.co.setPend d))).cur.blocks
       t.cur.blocks = b.drop 1 ∧ (d ≠ 0 → t.rd d = BitVec.ofNat 64 (b.headD 0) ∧ t.co.isPend d = false) ∧
       (s.PlainChunk s.cur.chunk → b = s.cur.blocks)) ∧
      t.co.pc = s.co.next ∧ (s.PlainChunk s.cur.chunk → t.mem = memPuts s.mem s.cur.chunk.writes)) ∧
    (s.Free [a] [] →
      ∀ n : Nat, n = 2 ^ (s.tenant (pkgOf s.focus) s.co.tenant.toNat).blog2.toNat →
      ((s.rd a).toNat % n ≠ 0 ∨ s.nearOk (pkgOf s.focus) s.co.tenant.toNat n (s.rd a).toNat = false →
        exec (.bfree a) s = .next (s.takeTrap ⟨6, s.rd a, 0, none⟩ s.co.pc)) ∧
      ((s.rd a).toNat % n = 0 → s.nearOk (pkgOf s.focus) s.co.tenant.toNat n (s.rd a).toNat = true →
        (s.ended s).cur.blocks.length < 16 → ((s.ended s).pkg (pkgOf (s.ended s).focus)).retired = [] →
        ∃ t, exec (.bfree a) s = .next t ∧ t.cur.blocks = (s.rd a).toNat :: (s.ended s).cur.blocks ∧
          (s.PlainChunk s.cur.chunk → t.mem = memPuts s.mem s.cur.chunk.writes)))

/-- R342, R343: PARK, its chunk committed and its addresses good, either writes -1 and its reason to s[D] and the next register,
or, where the wake word has a value, goes on with it in s1 and 0 in s[D]; or it leaves its slot, with a park entry that holds
the wake word, the table, the promotion token, the coroutine's CID and the D field, and a watch on the wake word. -/
def Sys2Proof.Claims.parkParks : Prop :=
  ∀ (d : Reg) (live : Word) (s c t u v : State) (k w pt : Nat) (bs : List Byte), s.Free [d, d + 1] [] → s.cur.vq = [] →
    s.cur.running = some k → s.ownCommit = some c →
    (c.setExt { c.ext with ended := true }).wakeWord (s.rd d) = .ok t w → (s.rd (d + 1)).toNat % 64 = 0 →
    t.chunkRead (s.rd (d + 1)) 64 = .ok u bs → u.promotionToken (ParkHead.of bs).ptok = .ok v pt →
    let fin := fun x : State => (x.setExt { x.ext with ended := false }).settle
    (∀ r, v.parkReason (s.rd (d + 1)) (ParkHead.of bs) = .error r →
      exec (.park d live) s = .next (fin ((v.wr d (-1)).wr (d + 1) (BitVec.ofNat 64 r)))) ∧
    ∀ bt e a z, v.parkReason (s.rd (d + 1)) (ParkHead.of bs) = .ok bt → v.ext.unacked = [] → v.ext.lost = [] →
      let f := v.setExt { v.ext with touched := [], wide := false }
      f.freeEntry (pkgOf v.focus) v.co.tenant = some e →
      f.takeTier (pkgOf v.focus) v.co.tenant.toNat 0 (v.co.parkBytes live) 64 = some (a, z) →
      v.waitersFull w = false → v.failing w = false →
      (memWord v.mem w ≠ 0 → exec (.park d live) s = .next (fin ((f.wr 1 (memWord v.mem w)).wr d 0))) ∧
      (memWord v.mem w = 0 → ∃ x y, exec (.park d live) s = .next x ∧ x.cur.running = none ∧ (x.cur.slot k).st = .free ∧
        x.entry (pkgOf v.focus) e = some y ∧ y.st = 1 ∧ y.wtok = w ∧ y.btab = bt ∧ y.ptokp = pt ∧ y.cid = v.co.cid ∧
        y.tenant = v.co.tenant ∧ y.reg = d ∧ y.ctx = a ∧ y.woken = false ∧ (w, e) ∈ (x.pkg (pkgOf v.focus)).watches)

/-- R342 to R344, R354: BALLOC, BFREE and PARK.
The model's own reading or choice in it: logs 17 and 33. -/
def Obligations.NearBlocksAndPark : Prop := Claims.nearBlocks ∧ Claims.parkParks


/-! ### Vector instructions (R112 to R130) -/

namespace Sys2Proof.Claims

/-- The vector instructions of T32R that compute in registers alone (R119 to R129). -/
def vforms : List (V32 → Instr) :=
  [.vadd, .vsub, .vmul, .vmulh, .vdiv, .vrem, .vand, .vor, .vxor, .vshl, .vshr, .vsra, .vmin, .vmax, .vsadd, .vssub,
   .vfadd, .vfsub, .vfmul, .vfdiv, .vfsqrt, .vfmin, .vfmax, .vfabs, .vffma, .vffms, .vfnma, .vfrcp, .vfrsq, .vfrcps, .vfrsqs,
   .vfexp2, .vcvt, .vcvts, .vqblk, .veq, .vne, .vlt, .vle, .vgt, .vge, .vfeq, .vflt, .vfle, .vfunord, .vmv, .vmvs, .vmvx,
   .vmerge, .vidx, .vsow, .vredsum, .vredosum, .vredmin, .vredmax, .vredand, .vredor, .vscansum, .vscanmin, .vscanmax,
   .vgather, .vslideup, .vslidedn, .vcompress, .vcidx]

/-- The registers after a vector instruction that gave r: what it captured is unchanged, vstart is 0, and its scalar
destination, where it has one, holds the scalar result (R115, R118). -/
def vregs (c : Co) (dst : Option Reg) (r : Co × Word) : Co :=
  dst.elim { c.afterEntry r.1 with vstart := 0 } fun d => ({ c.afterEntry r.1 with vstart := 0 }).wr d r.2

/-- The state after a vector instruction that makes c of the registers: vstart is 0 and the PC advances. -/
def vdone (s : State) (c : Co) : State := (s.setCo { c with vstart := 0 }).retire

/-- The active elements: from vstart on, below vl, and under a mask those whose bit is set (R115). -/
def act (c : Co) (o : V32) : List Nat :=
  (List.range c.vl.toNat).filter fun i => c.vstart.toNat ≤ i ∧ (o.masked = true → c.mbit o.mr i = true)

/-- Element i of a register at width w. -/
def el (c : Co) (w : Nat) (r : Reg) (i : Nat) : BitVec w := BitVec.ofNat w (c.elem r.toNat w i)

/-- The last source at element i: v[B], s[B] cut to the width, or the immediate B, unsigned for a shift (R80, R120). -/
def lastInt (s : State) (o : V32) (w : Nat) (shift : Bool) (i : Nat) : BitVec w :=
  if o.x = 0 then el s.co w o.b i else if o.x = 1 then (s.rd o.b).setWidth w
  else if shift then o.b.setWidth w else o.b.signExtend w

/-- The forms of VINT: whether the immediate is a shift's, and the result for a signed or unsigned type (R36, R120). -/
def vint : List ((V32 → Instr) × Bool × (Bool → (w : Nat) → BitVec w → BitVec w → BitVec w)) :=
  [(.vadd, false, fun _ _ a b => a + b),
   (.vsub, false, fun _ _ a b => a - b),
   (.vmul, false, fun _ _ a b => a * b),
   (.vmulh, false, fun g w a b => if g then (a.signExtend (2 * w) * b.signExtend (2 * w)).extractLsb' w w
      else (a.setWidth (2 * w) * b.setWidth (2 * w)).extractLsb' w w),
   (.vdiv, false, fun g w a b => if b = 0 then BitVec.allOnes w else if g then a.sdiv b else BitVec.udiv a b),
   (.vrem, false, fun g _ a b => if b = 0 then a else if g then a.srem b else BitVec.umod a b),
   (.vand, false, fun _ _ a b => a &&& b),
   (.vor, false, fun _ _ a b => a ||| b),
   (.vxor, false, fun _ _ a b => a ^^^ b),
   (.vshl, true, fun _ w a b => a <<< (b.toNat % w)),
   (.vshr, true, fun _ w a b => a >>> (b.toNat % w)),
   (.vsra, true, fun _ w a b => a.sshiftRight (b.toNat % w)),
   (.vmin, false, fun g _ a b => if (if g then BitVec.slt b a else BitVec.ult b a) then b else a),
   (.vmax, false, fun g _ a b => if (if g then BitVec.slt a b else BitVec.ult a b) then b else a),
   (.vsadd, false, fun g w a b => if g then BitVec.ofInt w (max (-(2 ^ (w - 1) : Int)) (min (2 ^ (w - 1) - 1) (a.toInt + b.toInt)))
      else BitVec.ofNat w (min (2 ^ w - 1) (a.toNat + b.toNat))),
   (.vssub, false, fun g w a b => if g then BitVec.ofInt w (max (-(2 ^ (w - 1) : Int)) (min (2 ^ (w - 1) - 1) (a.toInt - b.toInt)))
      else BitVec.ofNat w (a.toNat - b.toNat))]

/-- The checks of a form at issue: a type as wide as vtype's, and registers that exist under D (R70, R117). -/
def vok (s : State) (o : V32) (rs : List Reg) : Prop :=
  tyWidth o.t.toNat = s.co.width ∧ ∀ r ∈ rs, r.toNat < s.co.nregs

/-- The last source of a floating-point form at element i, as a value of type t (R80). -/
def lastFp (s : State) (o : V32) (i : Nat) : FV :=
  if o.x = 0 then (fmtOf o.t.toNat).value (s.co.elem o.b.toNat s.co.width i)
  else if o.x = 1 then (fmtOf o.t.toNat).value ((s.rd o.b).toNat % 2 ^ s.co.width) else FV.ofInt o.b.toInt

/-- The forms of VFP with two sources (R121). -/
def vfp2 : List ((V32 → Instr) × (Nat → FV → FV → Ex × BitVec 5)) :=
  [(.vfadd, fun rm x y => (.val (x.add rm y).1, (x.add rm y).2)),
   (.vfsub, fun rm x y => (.val (x.add rm y.neg).1, (x.add rm y.neg).2)),
   (.vfmul, fun _ x y => (.val (x.mul y).1, (x.mul y).2)),
   (.vfdiv, fun _ x y => x.div y),
   (.vfmin, fun _ x y => (.val (x.pick false y).1, (x.pick false y).2)),
   (.vfmax, fun _ x y => (.val (x.pick true y).1, (x.pick true y).2))]

/-- The forms of VFP with one source: the absolute value and the root, rounded once, and the approximations, which round to nearest-even at
15 significand bits or at the format's own where it has fewer (R56, R57, R121). -/
def vfp1 : List ((V32 → Instr) × (Rnd → Fmt → FV → Nat × BitVec 5)) :=
  [(.vfsqrt, fun r m x => m.round r x.sqrt.1 x.sqrt.2),
   (.vfabs, fun r m x => m.round r (.val (match x with
      | .nan s => .nan s
      | .inf _ => .inf false
      | .fin _ k e => .fin false k e)) (if x.isSig then 0b10000 else 0)),
   (.vfrcp, fun _ m x => m.roundAt (min 15 (m.fb + 1)) rne ((FV.ofInt 1).div x).1 ((FV.ofInt 1).div x).2),
   (.vfrsq, fun _ m x => m.roundAt (min 15 (m.fb + 1)) rne x.rootRecip.1 x.rootRecip.2),
   (.vfexp2, fun _ m x => m.roundAt (min 15 (m.fb + 1)) rne x.exp2.1 x.exp2.2)]

/-- y × (2 − x × y), with the flags of its exact steps (R58). -/
def recipExact (rm : Nat) (x y : FV) : FV × BitVec 5 :=
  let p := x.mul y
  let d := FV.add rm (.ofInt 2) p.1.neg
  ((y.mul d.1).1, p.2 ||| d.2 ||| (y.mul d.1).2)

/-- y × (1.5 − 0.5 × x × y × y), with the flags of its exact steps (R58). -/
def rootExact (rm : Nat) (x y : FV) : FV × BitVec 5 :=
  let p := x.mul y
  let q := p.1.mul y
  let h := FV.mul (.fin false 1 (-1)) q.1
  let d := FV.add rm (.fin false 3 (-1)) h.1.neg
  ((y.mul d.1).1, p.2 ||| q.2 ||| h.2 ||| d.2 ||| (y.mul d.1).2)

/-- VFRCPS and VFRSQS: the exact evaluation, and the approximation whose complete result, where y is that zero or infinity, is the result
(R58). -/
def vfsteps : List ((V32 → Instr) × (Nat → FV → FV → FV × BitVec 5) × (FV → Ex × BitVec 5)) :=
  [(.vfrcps, recipExact, fun x => (FV.ofInt 1).div x), (.vfrsqs, rootExact, FV.rootRecip)]

/-- The three cases of R58, in its order. -/
def stepped (m : Fmt) (rm : Nat) (exact : Nat → FV → FV → FV × BitVec 5) (approx : FV → Ex × BitVec 5) (x y : FV) : FV × BitVec 5 :=
  if x.isNan || y.isNan then (.nan false, if x.isSig || y.isSig then 0b10000 else 0)
  else if (y.isZero || y == .inf (y.isNeg)) && (m.value (m.roundAt (min 15 (m.fb + 1)) rne (approx x).1 0).1).plain == y.plain then (y, 0)
  else exact rm x y

/-- The last source of a c32 form at element i: its real and imaginary parts; an immediate is the real part (R80, R122). -/
def lastParts (s : State) (o : V32) (i : Nat) : FV × FV :=
  let both := fun (x : Nat) => ((fmtOf 12).value (x % 2 ^ 32), (fmtOf 12).value (x / 2 ^ 32))
  if o.x = 0 then both (s.co.elem o.b.toNat 64 i) else if o.x = 1 then both (s.rd o.b).toNat else (FV.ofInt o.b.toInt, .fin false 0 0)

/-- A part of element i of a c32 register. -/
def cpart (s : State) (r : Reg) (i : Nat) (im : Bool) : FV :=
  (fmtOf 12).value (if im then s.co.elem r.toNat 64 i / 2 ^ 32 else s.co.elem r.toNat 64 i % 2 ^ 32)

/-- Both parts of a c32 result, each rounded once (R41, R122). -/
def cround (r : Rnd) (re im : FV × BitVec 5) : Nat × BitVec 5 :=
  let a := (fmtOf 12).round r (.val re.1) re.2
  let b := (fmtOf 12).round r (.val im.1) im.2
  (a.1 + b.1 * 2 ^ 32, a.2 ||| b.2)

/-- A sum of two exact values, or their difference, with the flags so far. -/
def plus (rm : Nat) (less : Bool) (x y : FV × BitVec 5) : FV × BitVec 5 :=
  let e := FV.add rm x.1 (if less then y.1.neg else y.1)
  (e.1, x.2 ||| y.2 ||| e.2)

/-- The parts of an exact product of two c32 values (R122). -/
def cproduct (rm : Nat) (a b : FV × FV) : (FV × BitVec 5) × (FV × BitVec 5) :=
  (plus rm true (a.1.mul b.1) (a.2.mul b.2), plus rm false (a.1.mul b.2) (a.2.mul b.1))

/-- An element of type ts converted to type td; sat for VCVTS (R37, R50, R123). -/
def converted (sat : Bool) (ts td : Nat) (r : Rnd) (x : Nat) : Nat × BitVec 5 :=
  let w := tyWidth td
  let n : Int := if ts < 4 then (BitVec.ofNat (tyWidth ts) x).toInt else x
  let part := fun (v : FV) =>
    let y := (fmtOf td).round r (.val v) (if v.isSig then 0b10000 else 0)
    if sat && y.2.getLsbD 2 then ((fmtOf td).maxCode + (fmtOf td).signBit v.isNeg, y.2) else y
  if ts < 8 then
    if td < 8 then
      ((BitVec.ofInt w (if !sat then n else if td < 4 then max (-2 ^ (w - 1)) (min (2 ^ (w - 1) - 1) n)
        else max 0 (min (2 ^ w - 1) n))).toNat, 0)
    else (fmtOf td).round r (.val (FV.ofInt n)) 0
  else if td < 8 then ((fmtOf ts).value x).toInt r (td < 4) w
  else if td = 14 then
    let re := part ((fmtOf 12).value (x % 2 ^ 32))
    let im := part ((fmtOf 12).value (x / 2 ^ 32))
    (re.1 + im.1 * 2 ^ 32, re.2 ||| im.2)
  else part ((fmtOf ts).value x)

/-- The scale of a block of values (R44). -/
def blockScale (xs : List FV) : Nat × BitVec 5 :=
  if xs.any fun x => match x with
    | .fin _ _ _ => false
    | _ => true
  then (255, 0b10000)
  else match (xs.filterMap fun x => match x with
    | .fin _ m e => if m = 0 then none else some ((Nat.log2 m : Int) + e)
    | _ => none).max? with
  | none => (0, 0)
  | some l => ((max 0 (min 254 (l - 2 + 127))).toNat, 0)

/-- An f4 element under a scale of e: x / 2^(e − 127) rounded, a magnitude beyond 6 saturated with OF and NX (R44). -/
def blockElem (e : Nat) (r : Rnd) (x : FV) : Nat × BitVec 5 :=
  if e = 255 then (0, 0)
  else match x with
    | .fin n m k =>
      let q : Int := k - (e - 127)
      if 6 * 2 ^ (-q).toNat < m * 2 ^ q.toNat then (if n then 0b1111 else 0b0111, 0b00101) else (fmtOf 8).round r (.val (.fin n m q)) 0
    | _ => (0, 0)

/-- VFFMA, VFFMS and VFNMA: the product's and the addend's signs (R121). -/
def vfused : List ((V32 → Instr) × Bool × Bool) := [(.vffma, false, false), (.vffms, false, true), (.vfnma, true, false)]

/-- The integer comparisons for a signed or an unsigned type (R125). -/
def vicmp : List ((V32 → Instr) × (Bool → (w : Nat) → BitVec w → BitVec w → Bool)) :=
  [(.veq, fun _ _ a b => a == b), (.vne, fun _ _ a b => a != b),
   (.vlt, fun g _ a b => if g then BitVec.slt a b else BitVec.ult a b),
   (.vle, fun g _ a b => !(if g then BitVec.slt b a else BitVec.ult b a)),
   (.vgt, fun g _ a b => if g then BitVec.slt b a else BitVec.ult b a),
   (.vge, fun g _ a b => !(if g then BitVec.slt a b else BitVec.ult a b))]

/-- The floating-point comparisons: the result on numbers, on a NaN, and whether every NaN sets NV or a signalling one only
(R51, R125). -/
def vfcmp : List ((V32 → Instr) × (FV → FV → Bool) × Bool × Bool) :=
  [(.vfeq, fun x y => !(x.lt y) && !(y.lt x), false, false), (.vflt, FV.lt, false, true), (.vfle, fun x y => !(y.lt x), false, true),
   (.vfunord, fun _ _ => false, true, false)]

/-- Registers that differ from c only in mask register d, whose bit i is f i. -/
def MaskIs (c c' : Co) (d : BitVec 3) (f : Nat → Bool) : Prop :=
  ∃ x : BitVec 65536, c' = { c with m := c.m.set d.toNat x } ∧ ∀ i, i < 65536 → x.getLsbD i = f i

/-- The mask forms with masks as sources (R130). -/
def masks : List ((Reg → Reg → Reg → Instr) × (Bool → Bool → Bool)) :=
  [(.mand, fun a b => a && b), (.mor, fun a b => a || b), (.mxor, fun a b => a != b), (.mandn, fun a b => a && !b)]

/-- The operators of integer reductions, with their identities (R62, R127). -/
def redInt : List ((V32 → Instr) × (Bool → (w : Nat) → BitVec w → BitVec w → BitVec w) × (Bool → (w : Nat) → BitVec w)) :=
  [(.vredsum, fun _ _ a b => a + b, fun _ _ => 0),
   (.vredosum, fun _ _ a b => a + b, fun _ _ => 0),
   (.vredmin, fun g _ a b => if (if g then BitVec.slt b a else BitVec.ult b a) then b else a,
      fun g w => if g then BitVec.intMax w else BitVec.allOnes w),
   (.vredmax, fun g _ a b => if (if g then BitVec.slt a b else BitVec.ult a b) then b else a,
      fun g w => if g then BitVec.intMin w else 0)]

/-- The bitwise reductions (R127). -/
def redBits : List ((V32 → Instr) × ((w : Nat) → BitVec w → BitVec w → BitVec w) × ((w : Nat) → BitVec w)) :=
  [(.vredand, fun _ a b => a &&& b, fun w => BitVec.allOnes w), (.vredor, fun _ a b => a ||| b, fun _ => 0)]

/-- A partial result: its value, the lowest index of its elements, its flags (R59). -/
abbrev Part := Nat × Nat × BitVec 5

/-- A partial sum of R59: the elements of a lane in ascending index, the first one unchanged, each later one with one rounding. -/
def lane (op : Nat → Nat → Nat → Nat × BitVec 5) (x : Nat → Nat) (l : List Nat) : Option Part :=
  l.foldl (fun p i => match p with
    | none => some (x i, i, 0)
    | some p => some ((op i p.1 (x i)).1, p.2.1, p.2.2 ||| (op i p.1 (x i)).2)) none

/-- Node j of a level of R59's tree over the partials, level 0: an empty one passes its partner through. -/
def node (op : Nat → Nat → Nat → Nat × BitVec 5) (leaf : Nat → Option Part) : Nat → Nat → Option Part
  | 0, j => leaf j
  | n + 1, j => match node op leaf n (2 * j), node op leaf n (2 * j + 1) with
    | some a, some b => some ((op b.2.1 a.1 b.1).1, min a.2.1 b.2.1, a.2.2 ||| b.2.2 ||| (op b.2.1 a.1 b.1).2)
    | some a, none => some a
    | none, b => b

/-- The floating-point reductions (R59, R62, R127). -/
def redFp : List ((V32 → Instr) × Red) := [(.vredsum, .sum), (.vredmin, .min), (.vredmax, .max)]

/-- One rounded addition of codes of format t, with its flags ORed to those before (R60). -/
def addCode (s : State) (o : V32) (p : Nat × BitVec 5) (i x : Nat) : Nat × BitVec 5 :=
  let r := s.co.rnd o.rm.toNat i
  let e := ((fmtOf o.t.toNat).value p.1).add r.rm ((fmtOf o.t.toNat).value x)
  let y := (fmtOf o.t.toNat).round r (.val e.1) e.2
  (y.1, p.2 ||| y.2)

end Sys2Proof.Claims

/-- R70, R115, R118: where the vector queue is empty and nothing is pending, each vector instruction that computes in
registers alone completes with what its meaning gives for its scalars, and vstart is 0; one that names a register that D
does not declare, or a type of another width, takes cause 1. Behind a queued instruction it takes a place of the sixteen,
with what it captures, and its scalar destination is pending; VECTOR_QUEUE_EXECUTE executes the first of the queue, where no register holds
an error, for the registers that the next chunk started with too where it belongs to a chunk that waits (R250).
The model's own reading or choice in it: log 5. -/
def Obligations.VectorInstructionsComplete : Prop :=
  (∀ x ∈ Claims.vforms, ∀ (o : V32) (s : State), ∃ m, vecSem (x o) = some m ∧
    (s.VectorFree → s.Free m.rs m.dst.toList → m.ok s.co = true →
      exec (x o) s = .next (s.setCo (Claims.vregs s.co m.dst (m.run (s.rd o.a) (s.rd o.b) none s.co))).retire) ∧
    (m.ok s.co = false → exec (x o) s = .next (s.takeTrap ⟨1, instrVal (x o), 0, none⟩ s.co.pc)) ∧
    (s.cur.vq ≠ [] → s.cur.vq.length < 16 → s.ext.badRegs = [] → s.Free m.rs m.dst.toList → m.ok s.co = true →
      ∃ t : State, exec (x o) s = .next t.retire ∧ t.cur.vq = s.cur.vq ++ [s.co.entry (x o) o.a o.b] ∧
        t.co = (match m.dst with
          | some d => ({ s.co with vstart := 0 }).setPend d
          | none => { s.co with vstart := 0 }) ∧ t.mem = s.mem ∧ t.ext = s.ext)) ∧
  (∀ (a b d : Reg) (s : State), s.VectorFree →
    (∀ i ∈ [Instr.mand d a b, .mor d a b, .mxor d a b, .mandn d a b, .mnot d a, .mclr d, .mpopc d a, .mfirst d a, .mfromv d a],
      ∃ m, vecSem i = some m ∧ (s.Free m.rs m.dst.toList → m.ok s.co = true →
        exec i s = .next (s.setCo (Claims.vregs s.co m.dst (m.run 0 0 none s.co))).retire)) ∧
    (s.Free [a] [] → exec (.msetvl d a) s = .next (s.setCo (Claims.vregs s.co none ((msetvlSem d a).run (s.rd a) 0 none s.co))).retire)) ∧
  ∀ (g : CoreId) (s : State) (e : VEntry) (rest : List VEntry) (m : VSem), (s.core g).vq = e :: rest → vecSem e.ins = some m →
    (s.core g).ext.vpend = [] → (s.core g).ext.cpend = [] → (s.core g).ext.mpend = 0 → (s.core g).ext.badRegs = [] →
    let f := fun (c : Co) => m.dst.elim (m.execute e c).1 fun d => (m.execute e c).1.wr d (m.execute e c).2
    (e.early = false → exec (.vectorQueueExecute g) s = .next (s.setCore g { s.core g with co := f (s.core g).co, vq := rest })) ∧
    (e.early = true → ∃ t, exec (.vectorQueueExecute g) s = .next t ∧ (t.core g).co = f (s.core g).co ∧ (t.core g).vq = rest ∧
      (t.core g).chunk.start = f (s.core g).chunk.start ∧ t.mem = s.mem)

/-- R36, R80, R115, R120: each form of VINT writes its result at every active element of v[D], whatever the last source is,
and nothing else but vstart and the PC changes. -/
def Obligations.VectorIntegerResults : Prop :=
  ∀ x ∈ Claims.vint, ∀ (o : V32) (s : State), s.VectorFree → s.Free o.ssrc [] → Claims.vok s o (o.d :: o.a :: o.vsrc) →
    exec (x.1 o) s = .next (Claims.vdone s (s.co.vput o.d.toNat s.co.width ((Claims.act s.co o).map fun i =>
      (i, (x.2.2 (o.t.toNat < 4) s.co.width (Claims.el s.co s.co.width o.a i)
        (Claims.lastInt s o s.co.width x.2.1 i)).toNat, 0))))

/-- R46, R51, R80, R121: the floating-point forms with two or three sources compute each active element exactly from their sources and
round it once to the instruction's type and mode, with the flags of all of them ORed into fmode. -/
def Sys2Proof.Claims.vectorFpForms : Prop :=
  ∀ (o : V32) (s : State), s.VectorFree → 10 ≤ o.t.toNat → o.t.toNat ≤ 13 →
    (s.Free o.ssrc [] → Claims.vok s o (o.d :: o.a :: o.vsrc) → ∀ x ∈ Claims.vfp2,
      exec (x.1 o) s = .next (Claims.vdone s (s.co.vput o.d.toNat s.co.width ((Claims.act s.co o).map fun i =>
        let e := x.2 (s.co.rnd o.rm.toNat i).rm ((fmtOf o.t.toNat).value (s.co.elem o.a.toNat s.co.width i)) (Claims.lastFp s o i)
        (i, (fmtOf o.t.toNat).round (s.co.rnd o.rm.toNat i) e.1 e.2))))) ∧
    (Claims.vok s o [o.d, o.a, o.b, o.c] → ∀ x ∈ Claims.vfused,
      exec (x.1 o) s = .next (Claims.vdone s (s.co.vput o.d.toNat s.co.width ((Claims.act s.co o).map fun i =>
        let p := (fmtOf o.t.toNat).value (s.co.elem o.a.toNat s.co.width i)
        let z := (fmtOf o.t.toNat).value (s.co.elem o.c.toNat s.co.width i)
        let e := (if x.2.1 then p.neg else p).fma (s.co.rnd o.rm.toNat i).rm
          ((fmtOf o.t.toNat).value (s.co.elem o.b.toNat s.co.width i)) (if x.2.2 then z.neg else z)
        (i, (fmtOf o.t.toNat).round (s.co.rnd o.rm.toNat i) (.val e.1) e.2)))))

/-- R56 to R58, R121: the root, the absolute value, the approximations and their refining steps, at each active element. -/
def Sys2Proof.Claims.vectorRootsAndSteps : Prop :=
  ∀ (o : V32) (s : State), s.VectorFree → 10 ≤ o.t.toNat → o.t.toNat ≤ 13 →
    let m := fmtOf o.t.toNat
    let a := fun i => m.value (s.co.elem o.a.toNat s.co.width i)
    let b := fun i => m.value (s.co.elem o.b.toNat s.co.width i)
    let r := fun i => s.co.rnd o.rm.toNat i
    (Claims.vok s o [o.d, o.a] → ∀ x ∈ Claims.vfp1, exec (x.1 o) s = .next (Claims.vdone s (s.co.vput o.d.toNat s.co.width
      ((Claims.act s.co o).map fun i => (i, x.2 (r i) m (a i)))))) ∧
    (Claims.vok s o [o.d, o.a, o.b] → ∀ x ∈ Claims.vfsteps, exec (x.1 o) s = .next (Claims.vdone s (s.co.vput o.d.toNat s.co.width
      ((Claims.act s.co o).map fun i =>
        let e := Claims.stepped m (r i).rm x.2.1 x.2.2 (a i) (b i)
        (i, m.round (r i) (.val e.1) e.2)))))

/-- R41, R80, R122: the c32 forms, each part formed exactly and rounded once under the same mode, with every form of the last source. -/
def Sys2Proof.Claims.vectorComplexForms : Prop :=
  ∀ (o : V32) (s : State), s.VectorFree → o.t = 14 →
    let a := fun i => (Claims.cpart s o.a i false, Claims.cpart s o.a i true)
    let b := fun i => (Claims.cpart s o.b i false, Claims.cpart s o.b i true)
    let c := fun i => (Claims.cpart s o.c i false, Claims.cpart s o.c i true)
    let r := fun i => s.co.rnd o.rm.toNat i
    let put := fun (f : Nat → (FV × BitVec 5) × (FV × BitVec 5)) => Claims.vdone s (s.co.vput o.d.toNat 64
      ((Claims.act s.co o).map fun i => (i, Claims.cround (r i) (f i).1 (f i).2)))
    (s.Free o.ssrc [] → Claims.vok s o (o.d :: o.a :: o.vsrc) →
      (∀ x ∈ [(Instr.vfadd, false), (.vfsub, true)], exec (x.1 o) s = .next (put fun i =>
        (Claims.plus (r i).rm x.2 ((a i).1, 0) ((Claims.lastParts s o i).1, 0),
         Claims.plus (r i).rm x.2 ((a i).2, 0) ((Claims.lastParts s o i).2, 0)))) ∧
      exec (.vfmul o) s = .next (put fun i => Claims.cproduct (r i).rm (a i) (Claims.lastParts s o i))) ∧
    (Claims.vok s o [o.d, o.a, o.b, o.c] → ∀ x ∈ Claims.vfused, exec (x.1 o) s = .next (put fun i =>
      let p := Claims.cproduct (r i).rm (a i) (b i)
      let signed := fun (v : FV × BitVec 5) => (if x.2.1 then v.1.neg else v.1, v.2)
      (Claims.plus (r i).rm x.2.2 (signed p.1) ((c i).1, 0), Claims.plus (r i).rm x.2.2 (signed p.2) ((c i).2, 0))))

/-- R37, R44, R50, R117, R123, R124: VCVT and VCVTS convert each active element from vtype's type to their own, at the width of each; VQBLK
writes the scale of each block of sixteen that has an active element, and the block's active elements under it. -/
def Sys2Proof.Claims.vectorConversions : Prop :=
  ∀ (o : V32) (s : State), s.VectorFree → o.d.toNat < s.co.nregs → o.a.toNat < s.co.nregs →
    let ts := s.co.vtype.toNat % 16
    let td := o.t.toNat
    ((ts = 14 ↔ td = 14) → (s.co.width = tyWidth td ∨ o.d ≠ o.a) → s.co.vl.toNat ≤ 262144 / s.co.nregs * 8 / tyWidth td →
      ∀ x ∈ [(Instr.vcvt, false), (.vcvts, true)], exec (x.1 o) s = .next (Claims.vdone s (s.co.vput o.d.toNat (tyWidth td)
        ((Claims.act s.co o).map fun i =>
          (i, Claims.converted x.2 ts td (s.co.rnd o.rm.toNat i) (s.co.elem o.a.toNat s.co.width i)))))) ∧
    (10 ≤ ts → ts ≤ 12 → o.a ≠ 7 → o.d ≠ o.a →
      let val := fun i => (fmtOf ts).value (s.co.elem o.a.toNat s.co.width i)
      exec (.vqblk o) s = .next (Claims.vdone s (((Claims.act s.co o).map (· / 16)).eraseDups.foldl (fun c k =>
        let l := (Claims.act s.co o).filter fun i => i / 16 = k
        let e := Claims.blockScale (l.map val)
        (c.vput 7 8 [(k, e)]).vput o.d.toNat 4 (l.map fun i => (i, Claims.blockElem e.1 (s.co.rnd o.rm.toNat i) (val i)))) s.co)))

/-- R37, R41, R44, R46, R50, R51, R56 to R58, R80, R117, R121 to R124: the results of VFP and of the conversions.
The model's own reading or choice in it: log 19. -/
def Obligations.VectorFpResults : Prop :=
  Claims.vectorFpForms ∧ Claims.vectorRootsAndSteps ∧ Claims.vectorComplexForms ∧ Claims.vectorConversions

/-- R116, R125, R130: a comparison writes bit i of its mask for every active element and leaves the other bits; the mask
forms write and count bits below vl alone. -/
def Obligations.VectorComparisonsAndMasks : Prop :=
  (∀ (o : V32) (s : State), s.VectorFree → s.Free o.ssrc [] → Claims.vok s o (o.a :: o.vsrc) →
    (∀ x ∈ Claims.vicmp, ∃ c, exec (x.1 o) s = .next (Claims.vdone s c) ∧ Claims.MaskIs s.co c o.md fun i =>
      if i ∈ Claims.act s.co o then x.2 (o.t.toNat < 4) s.co.width (Claims.el s.co s.co.width o.a i)
        (Claims.lastInt s o s.co.width false i) else s.co.mbit o.md i) ∧
    (10 ≤ o.t.toNat → o.t.toNat ≤ 13 → ∀ x ∈ Claims.vfcmp, ∃ c : Co, exec (x.1 o) s = .next (Claims.vdone s c) ∧
      ∀ v, v = (fun i => (fmtOf o.t.toNat).value (s.co.elem o.a.toNat s.co.width i)) →
      ∀ nan, nan = (fun i => (v i).isNan || (Claims.lastFp s o i).isNan) →
      (c.fmode = if (Claims.act s.co o).any (fun i => if x.2.2.2 then nan i else (v i).isSig || (Claims.lastFp s o i).isSig)
        then s.co.fmode ||| 0x1000 else s.co.fmode) ∧
      Claims.MaskIs s.co { c with fmode := s.co.fmode } o.md fun i => if i ∈ Claims.act s.co o then
        (if nan i then x.2.2.1 else x.2.1 (v i) (Claims.lastFp s o i)) else s.co.mbit o.md i)) ∧
  ∀ (d a b : Reg) (s : State), d.toNat < 8 → a.toNat < 8 → b.toNat < 8 → s.VectorFree → s.co.vl.toNat ≤ 65536 →
    ∀ bit : Reg → Nat → Bool, bit = (fun r i => s.co.mbit (r.setWidth 3) i) → ∀ below : Nat → Bool, below = (fun i => decide (i < s.co.vl.toNat)) →
    ((∀ x ∈ Claims.masks, ∃ c, exec (x.1 d a b) s = .next (Claims.vdone s c) ∧
        Claims.MaskIs s.co c (d.setWidth 3) fun i => if below i then x.2 (bit a i) (bit b i) else bit d i) ∧
      (∃ c, exec (.mnot d a) s = .next (Claims.vdone s c) ∧
        Claims.MaskIs s.co c (d.setWidth 3) fun i => if below i then !bit a i else bit d i) ∧
      (∃ c, exec (.mclr d) s = .next (Claims.vdone s c) ∧
        Claims.MaskIs s.co c (d.setWidth 3) fun i => !below i && bit d i)) ∧
    (∀ r : Reg, r.toNat < s.co.nregs → ∃ c, exec (.mfromv d r) s = .next (Claims.vdone s c) ∧
      Claims.MaskIs s.co c (d.setWidth 3) fun i => if below i then s.co.elem r.toNat s.co.width i != 0 else bit d i) ∧
    (∀ r : Reg, s.Free [r] [] → ∃ c, exec (.msetvl d r) s = .next (Claims.vdone s c) ∧
      Claims.MaskIs s.co c (d.setWidth 3) fun i => if below i then decide (i < (s.rd r).toNat) else bit d i) ∧
    ∀ r : Reg, s.Free [] [r] →
      exec (.mpopc r a) s = .next (Claims.vdone s (s.co.wr r (BitVec.ofNat 64 ((List.range s.co.vl.toNat).filter (bit a)).length))) ∧
      exec (.mfirst r a) s = .next (Claims.vdone s (s.co.wr r
        (((List.range s.co.vl.toNat).find? (bit a)).elim (BitVec.allOnes 64) (BitVec.ofNat 64))))

/-- R52, R53, R126, R128, R129: the moves and the permutations, each with the elements that it writes; a slide or a gather
that leaves the register reads zero, and an index form numbers the elements. -/
def Obligations.VectorMovesAndPermutations : Prop :=
  ∀ (o : V32) (s : State) (w max : Nat) (at_ : Reg → Nat → Nat) (put : List (Nat × Nat) → State) (ok : List Reg → Prop),
    w = s.co.width → max = 262144 / s.co.nregs * 8 / w → at_ = (fun r i => s.co.elem r.toNat w i) →
    put = (fun l => Claims.vdone s (s.co.vput o.d.toNat w (l.map fun x => (x.1, x.2, 0)))) →
    ok = (fun l => ∀ r ∈ l, r.toNat < s.co.nregs) → s.VectorFree →
    (ok [o.d, o.a] → exec (.vmv o) s = .next (put ((Claims.act s.co o).map fun i => (i, at_ o.a i)))) ∧
    (ok [o.d] → s.Free [o.a] [] →
      exec (.vmvs o) s = .next (put ((Claims.act s.co o).map fun i => (i, (s.rd o.a).toNat % 2 ^ w)))) ∧
    (ok [o.d, o.a, o.b] → exec (.vmerge o) s = .next (put (((List.range s.co.vl.toNat).filter fun i => s.co.vstart.toNat ≤ i).map fun i =>
      (i, if s.co.mbit o.mr i then at_ o.a i else at_ o.b i)))) ∧
    (ok [o.d] → exec (.vidx o) s = .next (put ((Claims.act s.co o).map fun i => (i, i % 2 ^ w))) ∧
      exec (.vsow o) s = .next (put ((Claims.act s.co o).map fun i =>
        let ctr := (s.co.sbase + BitVec.ofNat 64 i) <<< 8 ||| BitVec.ofNat 64 (o.b.toNat % 2 * 128 + o.y.toNat)
        let z0 := ctr + s.co.seed * 0x9E3779B97F4A7C15
        let z1 := (z0 ^^^ z0 >>> 32) * 0xD6E8FEB86659FD93
        let z2 := (z1 ^^^ z1 >>> 29) * 0xC2B2AE3D27D4EB4F
        (i, (z2 ^^^ z2 >>> 32).toNat % 2 ^ w)))) ∧
    (ok [o.a] → s.Free [o.b] [o.d] → exec (.vmvx o) s = .next (Claims.vdone s (s.co.wr o.d (if (s.rd o.b).toNat < max then
      (if s.co.vtype.toNat % 16 < 4 then (BitVec.ofNat w (at_ o.a (s.rd o.b).toNat)).signExtend 64
        else BitVec.ofNat 64 (at_ o.a (s.rd o.b).toNat)) else 0)))) ∧
    (ok [o.d, o.a, o.b] → o.d ≠ o.a → o.d ≠ o.b → exec (.vgather o) s = .next (put ((Claims.act s.co o).map fun i =>
      (i, if at_ o.b i < max then at_ o.a (at_ o.b i) else 0)))) ∧
    (ok [o.d, o.a] → o.d ≠ o.a → s.Free o.ssrc [] → ∀ k, k = (if o.x = 1 then (s.rd o.b).toNat else o.b.toNat) →
      exec (.vslideup o) s = .next (put (((Claims.act s.co o).filter fun i => k ≤ i).map fun i => (i, at_ o.a (i - k)))) ∧
      exec (.vslidedn o) s = .next (put ((Claims.act s.co o).map fun i => (i, if i + k < max then at_ o.a (i + k) else 0)))) ∧
    (ok [o.d, o.a] → o.d ≠ o.a → exec (.vcompress o) s = .next (put ((Claims.act s.co o).zipIdx.map fun p => (p.2, at_ o.a p.1)))) ∧
    (ok [o.d] → exec (.vcidx o) s = .next (put ((Claims.act s.co o).zipIdx.map fun p => (p.2, p.1 % 2 ^ w))))

/-- R36, R60, R62, R127: an integer reduction writes its operator over the initial value, or the identity, and the active elements
to element 0 of v[D]; VREDOSUM adds floating-point elements one after another in ascending order with one rounding
each. With vl = 0 nothing is written. -/
def Sys2Proof.Claims.reductionsInAnyOrder : Prop :=
  ∀ (o : V32) (s : State), s.VectorFree → o.x = 0 ∨ o.x = 1 →
    Claims.vok s o ([o.d, o.a] ++ if o.x = 1 then [o.b] else []) →
    (o.t.toNat ≤ 7 → (∀ x ∈ Claims.redInt, exec (x.1 o) s = .next (Claims.vdone s (s.co.vput o.d.toNat s.co.width
        (if s.co.vl = 0 then [] else [(0, (((Claims.act s.co o).map (Claims.el s.co s.co.width o.a)).foldl (x.2.1 (o.t.toNat < 4) s.co.width)
          (if o.x = 1 then Claims.el s.co s.co.width o.b 0 else x.2.2 (o.t.toNat < 4) s.co.width)).toNat, 0)])))) ∧
      ∀ x ∈ Claims.redBits, exec (x.1 o) s = .next (Claims.vdone s (s.co.vput o.d.toNat s.co.width
        (if s.co.vl = 0 then [] else [(0, (((Claims.act s.co o).map (Claims.el s.co s.co.width o.a)).foldl (x.2.1 s.co.width)
          (if o.x = 1 then Claims.el s.co s.co.width o.b 0 else x.2.2 s.co.width)).toNat, 0)])))) ∧
    (10 ≤ o.t.toNat → o.t.toNat ≤ 13 → exec (.vredosum o) s = .next (Claims.vdone s (s.co.vput o.d.toNat s.co.width
      (if s.co.vl = 0 then [] else [(0, (Claims.act s.co o).foldl (fun p i => Claims.addCode s o p i (s.co.elem o.a.toNat s.co.width i))
        (if o.x = 1 then s.co.elem o.b.toNat s.co.width 0 else 2 ^ (s.co.width - 1), 0))]))))

/-- R39, R59, R62, R127: a floating-point VREDSUM, VREDMIN or VREDMAX forms a partial for each of 64 lanes, 32 for 64-bit elements, combines
them by R59's tree, and takes in the initial value last; without an active element it gives that value or the identity. (A minimum or a
maximum is the same in any order, R62; that of one element alone is R39's canonical NaN where it is a NaN: log 52.) -/
def Sys2Proof.Claims.reductionsByTheTree : Prop :=
  ∀ x ∈ Claims.redFp, ∀ (o : V32) (s : State), s.VectorFree → o.x = 0 ∨ o.x = 1 →
    Claims.vok s o ([o.d, o.a] ++ if o.x = 1 then [o.b] else []) → 10 ≤ o.t.toNat → o.t.toNat ≤ (if x.2 = .sum then 14 else 13) →
    let t := o.t.toNat
    let w := s.co.width
    let lanes := if w = 64 then 32 else 64
    let op := fun i p q => x.2.apply t (s.co.rnd o.rm.toNat i) p q
    let act := Claims.act s.co o
    let leaf := fun k => Claims.lane op (s.co.elem o.a.toNat w) (act.filter fun i => i % (2048 / w) / (2048 / w / lanes) = k)
    let init := if o.x = 1 then some (s.co.elem o.b.toNat w 0) else none
    exec (x.1 o) s = .next (Claims.vdone s (s.co.vput o.d.toNat w (if s.co.vl = 0 then [] else
      [(0, match Claims.node op leaf (if w = 64 then 5 else 6) 0, init with
        | none, i => (i.getD (x.2.identity t), 0)
        | some p, none => if x.2 ≠ .sum ∧ act.length = 1 then op 0 p.1 p.1 else (p.1, p.2.2)
        | some p, some v => ((op 0 p.1 v).1, p.2.2 ||| (op 0 p.1 v).2))])))

/-- R36, R39, R59, R60, R62, R127: the reductions.
The model's own reading or choice in it: log 52. -/
def Obligations.VectorReductions : Prop := Claims.reductionsInAnyOrder ∧ Claims.reductionsByTheTree

/-- R61: a scan writes at each active element the running value up to it, inclusive, from the initial value or the operator's
identity; inactive elements and those from vl on keep theirs. -/
def Obligations.ScansAreInclusive : Prop :=
  ∀ x ∈ [(Instr.vscansum, Red.sum), (.vscanmin, .min), (.vscanmax, .max)], ∀ (o : V32) (s : State),
    s.VectorFree → o.x = 0 ∨ o.x = 1 → Claims.vok s o ([o.d, o.a] ++ if o.x = 1 then [o.b] else []) →
    ∃ r : List (Nat × BitVec 5), exec (x.1 o) s = .next (Claims.vdone s (s.co.vput o.d.toNat s.co.width ((Claims.act s.co o).zip r))) ∧
      r.length = (Claims.act s.co o).length ∧ ∀ (k i : Nat) (y : Nat × BitVec 5), (Claims.act s.co o)[k]? = some i → r[k]? = some y →
        y = x.2.apply o.t.toNat (s.co.rnd o.rm.toNat i)
          (if k = 0 then (if o.x = 1 then s.co.elem o.b.toNat s.co.width 0 else x.2.identity o.t.toNat) else (r[k - 1]?.getD (0, 0)).1)
          (s.co.elem o.a.toNat s.co.width i)

/-! ### Vector lengths, vector memory, VISSUE (R112 to R114, R131 to R166) -/

namespace Sys2Proof.Claims

/-- The registers after SETVL or SETVLHW has set a vector length of n (R112). -/
def vlSet (c : Co) (d : Reg) (dc : BitVec 2) (t : BitVec 4) (n : Nat) : Co :=
  ({ c with vtype := dc ++ t, vl := BitVec.ofNat 17 n, vstart := 0 }).wr d (BitVec.ofNat 64 n)

/-- vlmax(t, d) for d = 8 << DC (R112). -/
def vlmax (t : BitVec 4) (dc : BitVec 2) : Nat := 262144 / (8 * 2 ^ dc.toNat) * 8 / tyWidth t.toNat

/-- The vector registers as a change of D leaves them: zero where D changes (R113). -/
def reshaped (c : Co) (dc : BitVec 2) : Co := if c.vtype.extractLsb' 4 2 = dc then c else { c with v := [] }

/-- The vector loads and stores: the instruction, its fields an element, the address of field f of element i, its index
register, its scalars, and the operation whose elements it works through (R131, R132). n is N - 1 of a segment form. -/
def vmemForms (store : Bool) (n : BitVec 3) :
    List ((V32 → Instr) × Nat × (State → V32 → Nat → Nat → Word) × (V32 → List Reg) × (V32 → List Reg) × (V32 → VMemOp)) :=
  let unit := fun (k : Nat) (s : State) (o : V32) (i f : Nat) => s.rd o.a + BitVec.ofNat 64 ((i * k + f) * tyWidth o.t.toNat / 8)
  let strided := fun (s : State) (o : V32) (i _ : Nat) => s.rd o.a + BitVec.ofNat 64 i * s.rd o.b
  let indexed := fun (s : State) (o : V32) (i _ : Nat) => s.rd o.a + BitVec.ofNat 64 (s.co.elem o.b.toNat 64 i)
  [((if store then .vst else .vld), 1, unit 1, fun _ => [], fun o => [o.a], fun o => unitOp o store 1),
   ((if store then .vsts else .vlds), 1, strided, fun _ => [], fun o => [o.a, o.b], fun o => stridedOp o store),
   ((if store then .vstx else .vldx), 1, indexed, fun o => [o.b], fun o => [o.a], fun o => indexedOp o store),
   ((if store then fun o => .vstseg o n else fun o => .vldseg o n), n.toNat + 1, unit (n.toNat + 1), fun _ => [],
     fun o => [o.a], fun o => unitOp o store (n.toNat + 1))]

/-- The elements still to do: the active ones from where the instruction goes on (R142). -/
def todo (s : State) (o : V32) : List Nat := (act s.co o).filter fun i => s.co.cont ≤ i

/-- What a vector memory instruction needs at issue: an empty queue, its scalars, its width, its registers, an index that
fits the register, and a place among the chunk's 64 (R70, R117, R132, R141). -/
def vmemReady (s : State) (o : V32) (n : Nat) (idx sc : List Reg) : Prop :=
  s.VectorFree ∧ s.Free sc [] ∧ tyWidth o.t.toNat = s.co.width ∧ o.d.toNat + n ≤ s.co.nregs ∧ (∀ r ∈ idx, r.toNat < s.co.nregs) ∧
  (idx = [] ∨ s.co.vl.toNat ≤ 262144 / s.co.nregs * 8 / 64) ∧ s.cur.chunk.vmem < 64

/-- What VISSUE's next group comes to: the group of word istate.G0 of its list, under the fault mask, a nested VISSUE's next one where that
word is one; none where every group has been done (R157, R158, R161). The flag says that the group is done. -/
def group (s : State) (a c : Reg) (fm masked : Bool) (mr : BitVec 3) : Option (Except State (State × Bool)) :=
  let ms := (if masked then [mr] else []) ++ if fm then [c.setWidth 3] else []
  let g := s.co.grouping a false [a] ms ((List.range s.co.vl.toNat).filter fun j => !masked || s.co.mbit mr j)
  let t := s.setCo (s.co.faultMask fm (c.setWidth 3) g)
  let n := (s.co.istate.extractLsb' 0 7).toNat
  g.list[n]?.bind fun w => (wordInstr w).map fun i => match i with
    | .vissue .. => t.runNested n [a] ms i (s.co.groupOf a g w)
    | _ => (t.runWord 1 w i (s.co.groupOf a g w)).map fun u => (u, true)

end Sys2Proof.Claims

/-- R112, R113, R114: SETVL sets vtype, vl and vstart and writes vl to s[D]; a change of D zeroes the vector registers. SETVLHW does
so for avl = 0, granting none, and else asks its token word's home for a snapshot, the coroutine keeping what it asks for. -/
def Sys2Proof.Claims.setVl : Prop :=
  ∀ (d a b : Reg) (dc : BitVec 2) (t : BitVec 4) (s : State), s.VectorFree →
    (s.Free [a] [d] → exec (.setvl d a dc t) s =
      .next (s.setCo (Claims.vlSet (Claims.reshaped s.co dc) d dc t (min (s.rd a).toNat (Claims.vlmax t dc)))).retire) ∧
    (s.Free [a, b] [d] → (s.rd b).toNat % 8 ≠ 0 → ∃ u, Claims.Counted s u ∧ exec (.setvlhw d a b dc t) s =
      .next (u.takeTrap ⟨5, s.rd b, 0, none⟩ s.co.pc)) ∧
    ∀ u pa, s.Free [a, b] [d] → s.wordTarget .load false (s.rd b) = .ok u pa → s.MayCommit →
      (s.rd a = 0 → exec (.setvlhw d a b dc t) s = .next (s.ended (u.setCo (Claims.vlSet (Claims.reshaped u.co dc) d dc t 0)))) ∧
      ∀ k, s.rd a ≠ 0 → s.cur.running = some k → ∃ v, exec (.setvlhw d a b dc t) s = .next v ∧ v.co = (u.commitNow s.focus).co ∧
        v.mem = (u.commitNow s.focus).mem ∧ (v.cur.slot k).wait = .strip pa (s.rd b) d dc t (s.rd a) ∧
        Event.tokenSnapshot s.who ∈ v.flight ∧ v.stalled.contains s.focus = true

/-- R114, R230: the snapshot of a waiting SETVLHW grants the elements by which its word's CNT is ahead of `sbase`, at most avl and
vlmax, and the coroutine goes on; where the word grants nothing it stops with a full context until the word's generation
changes. -/
def Sys2Proof.Claims.stripsGranted : Prop :=
  ∀ (who : Who) (s : State) (pa : Pa) (va : Word) (d : Reg) (dc : BitVec 2) (t : BitVec 4) (avl : Word),
    let c := s.core who.core
    (c.slot who.slot).gen = who.gen → c.running = some who.slot → (c.slot who.slot).wait = .strip pa va d dc t avl →
    (s.pkg (paPkg pa)).on = true → s.readBusy pa 8 = false → s.failing pa = false → pkgOf who.core = paPkg pa →
    ∀ avail : Int, avail = (((memWord s.mem pa).extractLsb' 0 32).signExtend 64 - c.co.sbase).toInt →
      (0 < avail → ∃ v u : State, exec (.tokenSnapshot who) s = .next v ∧ v.focus = who.core ∧ v.mem = s.mem ∧
        v.co = u.passed ∧ u.focus = who.core ∧
        u.co = Claims.vlSet (Claims.reshaped c.co dc) d dc t (min (min avl.toNat (Claims.vlmax t dc)) avail.toNat) ∧
        (v.cur.slot who.slot).wait = .nothing) ∧
      (avail ≤ 0 → c.vq = [] → c.ext.vpend = [] → ∃ v, exec (.tokenSnapshot who) s = .next v ∧
        ∀ e x, e = v.core who.core → x = e.slot who.slot → e.running = none ∧ x.full = true ∧
          x.wait = .highWater pa ((memWord s.mem pa).extractLsb' 32 16) va ∧
          x.co = { Claims.reshaped c.co dc with vtype := dc ++ t } ∧ Event.tokenRegistration who ∈ v.flight)

/-- R112 to R114: SETVL and SETVLHW, and the snapshot that SETVLHW waits for.
The model's own reading or choice in it: log 23. -/
def Obligations.SetVl : Prop := Claims.setVl ∧ Claims.stripsGranted

/-- R131 to R139: a vector load that meets no fault completes; it changes no byte of memory and of the registers only v[D] to
v[D+N-1], vstart and the PC; each active element that this package serves holds the bytes that the coroutine sees at its
address, the others theirs. VLDFF is as VLD where no element faults, and trims vl at one above its first. -/
def Obligations.VectorLoads : Prop :=
  ∀ (n : BitVec 3) (o : V32) (s t : State),
    (∀ x ∈ Claims.vmemForms false n, Claims.vmemReady s o x.2.1 (x.2.2.2.1 o) (x.2.2.2.2.1 o) →
      s.elements ((x.2.2.2.2.2 o).element none (s.rd o.a) (s.rd o.b)) (Claims.todo s o) = .done t →
      exec (x.1 o) s = .next t.memoryDone.retire ∧ t.mem = s.mem ∧ (∀ a, t.seen a = s.seen a) ∧ t.co = { s.co with v := t.co.v } ∧
      t.clusters = s.clusters ∧ t.flight = s.flight ∧ (∀ g, g ≠ s.focus → t.core g = s.core g) ∧
      (Memory.wf s.co.v = true → s.co.vl.toNat ≤ 262144 / s.co.nregs * 8 / s.co.width → Memory.wf t.co.v = true ∧
        (∀ r i, r < s.co.nregs → i < 262144 / s.co.nregs * 8 / s.co.width →
          (r < o.d.toNat ∨ o.d.toNat + x.2.1 ≤ r ∨ i ∉ Claims.todo s o) → t.co.elem r s.co.width i = s.co.elem r s.co.width i) ∧
        (x.2.2.2.1 o ≠ [o.d] → ∀ (i f : Nat) (segs : List Seg), i ∈ Claims.todo s o → f < x.2.1 →
          s.reach s.space .load false (x.2.2.1 s o i f) (max 1 (s.co.width / 8)) = .ok segs → remote (pkgOf s.focus) segs = false →
          t.co.elem (o.d.toNat + f) s.co.width i = (if s.co.width = 4 then leNat ((segBytes segs).map s.seen) / 16 ^ (i % 2) % 16
            else leNat ((segBytes segs).map s.seen))))) ∧
    (Claims.vmemReady s o 1 [] [o.a] →
      (s.elements ((unitOp o false 1).element none (s.rd o.a) (s.rd o.b)) (Claims.todo s o) = .done t →
        exec (.vldff o) s = .next t.memoryDone.retire) ∧
      ∀ (i : Nat) (e : Trap), s.elements ((unitOp o false 1).element none (s.rd o.a) (s.rd o.b)) (Claims.todo s o) = .trap t i e →
        ((Claims.act s.co o).head? = some i → exec (.vldff o) s = .next (t.elementTrap i e)) ∧
        ((Claims.act s.co o).head? ≠ some i → ∃ u, exec (.vldff o) s = .next u ∧ u.co.vl = BitVec.ofNat 17 i ∧ u.co.vstart = 0 ∧
          u.co.v = t.co.v))

/-- R131 to R138: a vector store that meets no fault completes; it changes no register but vstart and the PC, and no byte
but those of its active elements' fields; where fields share bytes the later one stays. A fault is taken at its
element, for loads and stores alike, with vstart naming it and the elements below it done. -/
def Obligations.VectorStores : Prop :=
  ∀ (n : BitVec 3) (o : V32) (s t : State),
    (∀ x ∈ Claims.vmemForms true n, Claims.vmemReady s o x.2.1 (x.2.2.2.1 o) (x.2.2.2.2.1 o) →
      s.elements ((x.2.2.2.2.2 o).element none (s.rd o.a) (s.rd o.b)) (Claims.todo s o) = .done t →
      exec (x.1 o) s = .next t.memoryDone.retire ∧ t.mem = s.mem ∧ t.co = s.co ∧ t.clusters = s.clusters ∧ t.flight = s.flight ∧
      (∀ g, g ≠ s.focus → t.core g = s.core g) ∧
      ∀ (fields : List (Nat × Nat)) (pas : Nat × Nat → List Pa),
        fields = ((Claims.todo s o).flatMap fun i => (List.range x.2.1).map fun f => (i, f)) →
        (∀ p ∈ fields, ∃ segs, s.reach s.space .store false (x.2.2.1 s o p.1 p.2) (max 1 (s.co.width / 8)) = .ok segs ∧
          remote (pkgOf s.focus) segs = false ∧ pas p = segBytes segs) →
        (∀ a, (∀ p ∈ fields, a ∉ pas p) → t.seen a = s.seen a) ∧
        (s.co.width ≠ 4 → ∀ (k j : Nat) (p : Nat × Nat) (a : Pa), fields[k]? = some p → (pas p)[j]? = some a →
          (∀ l : Nat, j < l → (pas p)[l]? ≠ some a) →
          (∀ (m : Nat) q, k < m → fields[m]? = some q → a ∉ pas q) →
          some (t.seen a) = (leBytes (s.co.width / 8) (s.co.elem (o.d.toNat + p.2) s.co.width p.1))[j]?)) ∧
    ∀ (st : Bool), ∀ x ∈ Claims.vmemForms st n, ∀ (i : Nat) (e : Trap), Claims.vmemReady s o x.2.1 (x.2.2.2.1 o) (x.2.2.2.2.1 o) →
      s.elements ((x.2.2.2.2.2 o).element none (s.rd o.a) (s.rd o.b)) (Claims.todo s o) = .trap t i e →
      exec (x.1 o) s = .next (t.elementTrap i e) ∧ i ∈ Claims.todo s o

/-- R145, R146, R150, R151, R157, R160, R163: VXLATE writes each active position's address, or zero with the fault bit;
VXLATEFF stops at the first bad one with vl its index; a combining atomic sends one update for each distinct address, in the
order of their first elements, with s[D] pending; VISSUE takes cause 9 for the first bad word where it has no fault mask; else each
step runs its next group, with istate counting those that are done, until it is over (R165); a computing word runs on the elements
that hold it.
The model's own reading or choice in it: log 44, and log 32 that a step runs one group and leaves istate between the steps. -/
def Obligations.TranslateAtomicsAndIssue : Prop :=
  (∀ (o : V32) (s t : State), s.VectorFree → s.Free [o.a] [] → s.co.width = 64 → o.d.toNat < s.co.nregs → o.b.toNat < s.co.nregs →
    s.cur.chunk.vmem < 64 →
    (s.elements (State.xlateElement o (s.rd o.a)) (Claims.todo s o) = .done t → exec (.vxlate o) s = .next t.memoryDone.retire ∧
      t.mem = s.mem ∧ (∀ a, t.seen a = s.seen a) ∧
      (Memory.wf s.co.v = true → s.co.vl.toNat ≤ 262144 / s.co.nregs / 8 → ∀ i ∈ Claims.todo s o, ∀ u r,
        s.position (s.rd o.a) (s.co.elem o.b.toNat 64 i) = .ok u r →
        t.co.elem o.d.toNat 64 i = (r.getD 0).toNat ∧ t.co.mbit (o.c.setWidth 3) i = r.isNone)) ∧
    (s.elements (State.xlateffElement o (s.rd o.a)) (Claims.todo s o) = .done t → exec (.vxlateff o) s = .next t.memoryDone.retire) ∧
    ∀ (i : Nat) (e : Trap), s.elements (State.xlateffElement o (s.rd o.a)) (Claims.todo s o) = .trap t i e → i < 65536 →
      ∃ u, exec (.vxlateff o) s = .next u ∧ u.co.vl = BitVec.ofNat 17 i ∧ u.co.v = t.co.v ∧ u.co.mbit (o.c.setWidth 3) i = true) ∧
  (∀ x ∈ [(Instr.vaadd, 0), (.vamin, 1), (.vamax, 2), (.vaor, 3)], ∀ (o : V32) (s : State) (r : State × List Combined × Option (Nat × Except Word Trap)),
    s.VectorFree → s.Free [o.a] [o.d] → s.MayCommit → Claims.vok s o [o.b, o.c] → s.co.vl.toNat ≤ 262144 / s.co.nregs / 8 →
    r = s.gather (vamoOp x.2) o (s.rd o.a) (s.co.active none o) [] → r.2.2 = none →
    ∃ u, exec (x.1 o) s = .next (s.ended u) ∧ u.co = ({ r.1.co with vstart := 0 }).setPend o.d ∧ u.mem = s.mem ∧
      u.cur.chunk.writes = s.cur.chunk.writes ∧
      r.2.1.map (·.va) = ((Claims.act s.co o).map fun i => s.rd o.a + BitVec.ofNat 64 (s.co.elem o.b.toNat 64 i)).eraseDups ∧
      u.cur.chunk.posts.map (·.pa) = s.cur.chunk.posts.map (·.pa) ++ r.2.1.map (·.pa) ∧
      (r.2.1 = [] → u.cur.chunk.compl = s.cur.chunk.compl ++ [(o.d, 0x8000000000000000)])) ∧
  ∀ (a c : Reg) (fm masked : Bool) (mr : BitVec 3) (s : State), s.VectorFree → s.co.pend = 0 →
    a.toNat < s.co.nregs → s.co.vl.toNat ≤ 262144 / s.co.nregs / 8 →
    ∀ el ms g, el = ((List.range s.co.vl.toNat).filter fun j => !masked || s.co.mbit mr j) →
      ms = ((if masked then [mr] else []) ++ if fm then [c.setWidth 3] else []) → g = s.co.grouping a false [a] ms el →
    ∀ n, n = (s.co.istate.extractLsb' 0 7).toNat →
    let fin := fun u : State => (u.setCo { u.co with istate := 0, vstart := 0 }).retire
    (∀ b l, fm = false → g.bad = b :: l →
      exec (.vissue a c fm masked mr) s = .next (s.takeTrap ⟨9, BitVec.ofNat 64 b, 0, none⟩ s.co.pc)) ∧
    (fm = true ∨ g.bad = [] →
      (Claims.group s a c fm masked mr = none →
        exec (.vissue a c fm masked mr) s = .next (fin (s.setCo (s.co.faultMask fm (c.setWidth 3) g)))) ∧
      (∀ u, Claims.group s a c fm masked mr = some (.ok (u, true)) → exec (.vissue a c fm masked mr) s =
        .next (if g.list.length ≤ n + 1 then fin u else u.setCo { u.co with istate := BitVec.ofNat 17 (n + 1) })) ∧
      (∀ u, Claims.group s a c fm masked mr = some (.ok (u, false)) → exec (.vissue a c fm masked mr) s = .next u) ∧
      (∀ u, Claims.group s a c fm masked mr = some (.error u) → exec (.vissue a c fm masked mr) s = .next u) ∧
      ∀ w i m, el ≠ [] → (∀ j ∈ el, s.co.wordAt a j = w) → s.co.legal false [a] ms w = true → wordInstr w = some i →
        wordSem w i = some m → s.co.marks = [] → s.co.istate = 0 →
        ∃ c0 u, exec (.vissue a c fm masked mr) s = .next (State.retire u) ∧ u.mem = s.mem ∧
          (if fm then Claims.MaskIs s.co c0 (c.setWidth 3) fun j => if j ∈ el then false else s.co.mbit (c.setWidth 3) j
            else c0 = s.co) ∧
          u.co = { (m.run (c0.rd (w.extractLsb' 43 5)) (c0.rd (w.extractLsb' 38 5)) (some (groupMask el)) c0).1 with
            vstart := 0, istate := 0 })

/-! ### The matrix unit (R168 to R193) -/

namespace Sys2Proof.Claims

/-- The check of a number of rows and a start row (R178). -/
def rowsOk (count start : Word) : Prop := 1 ≤ count.toNat ∧ count.toNat ≤ 128 ∧ start.toNat ≤ 127 ∧ start.toNat + count.toNat ≤ 128

/-- The first n words of v7, which hold scales (R172). -/
def vsc (s : State) (n : Nat) : List (BitVec 32) := (List.range n).map fun e => BitVec.ofNat 32 (s.co.elem 7 32 e)

/-- The state u with one more job in the queue of the core in focus, which an idle unit serves at once (R181, R184). -/
def Queued (u t : State) (kind : JobKind) (tile : BitVec 3) (start count : Nat) : Prop :=
  t.co = u.co ∧ t.mem = u.mem ∧ (∀ n, (t.cluster n).acc = (u.cluster n).acc) ∧
  ∃ (j : Job) (v : State), t = v.grantIdle (clusterOf u.focus) ∧ v.cur.jobs = u.cur.jobs ++ [j] ∧ v.clusters = u.clusters ∧
    j.kind = kind ∧ j.tile = tile ∧ j.start = start ∧ j.count = count ∧ j.who = u.who

/-- The accumulator differs only in a row, whose entries are those of f; an entry that f leaves out is as before. -/
def RowIs (c c' : Cluster) (tile row : Nat) (f : Nat → Option (BitVec 80)) : Prop :=
  ∀ tl r e, r < 128 → e < 256 → c'.accAt tl r e = if tl = tile ∧ r = row then (f e).getD (c.accAt tl r e) else c.accAt tl r e

end Sys2Proof.Claims

/-- R172, R176 to R181, R187: MLOADW writes its core's descriptor; MSTREAM, MZERO and MWRITE check their rows and put a job in
their core's queue, MSTREAM with what it reads locked and its bytes as they stand, MWRITE, with nothing queued or pending before it, with its
row captured. A bad row count takes cause 1, a misaligned tile or a tile outside the near memories cause 5, and so do activation rows that
leave the core's own scratchpad before a byte of them fails otherwise. -/
def Sys2Proof.Claims.matrixJobs : Prop :=
  ∀ (x : BitVec 3) (a b c : Reg) (t : BitVec 4) (s : State), s.VectorFree → s.MayCommit →
    (s.Free [a] [] → ((s.rd a).toNat % 256 ≠ 0 → exec (.mloadw a t) s = .next (s.takeTrap ⟨5, s.rd a, 0, none⟩ s.co.pc)) ∧
      ∀ v segs g, (s.rd a).toNat % 256 = 0 → s.translated .load (s.rd a) (tileBytes t) = .ok v segs → segs.head? = some g →
        Claims.Alike s v ∧
        (s.tileFits (clusterOf s.focus) g.pa (tileBytes t) = false →
          exec (.mloadw a t) s = .next (v.takeTrap ⟨5, s.rd a, 0, none⟩ s.co.pc)) ∧
        (s.tileFits (clusterOf s.focus) g.pa (tileBytes t) = true → exec (.mloadw a t) s =
          .next ((s.ended v).setWeights ⟨g.pa, t, if t = 9 then Claims.vsc s 16 else [], s.co.cid, s.rd a, s.co.asid⟩))) ∧
    (s.Free [b, c] [] → (¬Claims.rowsOk (s.rd b) (s.rd c) →
        exec (.mzero x b c) s = .next (s.takeTrap ⟨1, instrVal (.mzero x b c), 0, none⟩ s.co.pc)) ∧
      (Claims.rowsOk (s.rd b) (s.rd c) → s.cur.jobs.length < 16 → ∃ t, exec (.mzero x b c) s = .next t ∧
        Claims.Queued (s.ended s) t .zero x (s.rd c).toNat (s.rd b).toNat)) ∧
    (s.Free [b] [] → a.toNat < s.co.nregs → tyWidth t.toNat = s.co.width → (s.rd b).toNat ≤ 127 → s.cur.jobs.length < 16 →
      ∃ v, exec (.mwrite x a b t) s = .next v ∧
        Claims.Queued (s.ended (s.setCo (s.co.orFlags (s.co.writeRow a.toNat t.toNat).2))) v
          (.write (s.co.writeRow a.toNat t.toNat).1) x (s.rd b).toNat 1) ∧
    (s.Free [a, b, c] [] → (¬Claims.rowsOk (s.rd b) (s.rd c) →
        exec (.mstream x a b c) s = .next (s.takeTrap ⟨1, instrVal (.mstream x a b c), 0, none⟩ s.co.pc)) ∧
      ∀ w run, Claims.rowsOk (s.rd b) (s.rd c) → s.cur.weights = some w → w.cid = s.co.cid → (s.rd a).toNat % 64 = 0 →
        run = s.ownRun (s.rd a) ((s.rd b).toNat * columnBytes w.t) →
        (∀ n e, run = .trap n e → exec (.mstream x a b c) s = .next ((s.counted n).takeTrap e s.co.pc)) ∧
        ∀ n segs u rows, run = .ok n segs → rows = (segs.map fun g => (g.pa, g.len)) →
        s.cur.jobs.length < 16 → u = s.ended n → u.rowsHeld rows w = false → Claims.Alike s n ∧ offOwn s.focus 0 segs = none ∧
        ∃ v : State, exec (.mstream x a b c) s = .next (v.grantIdle (clusterOf s.focus)) ∧
          (∃ (j : Job) (d : List Host.Cell) (td : Option (List Host.Cell)), v.cur.jobs = u.cur.jobs ++ [j] ∧
            j.kind = .stream rows w (if w.t = 9 then Claims.vsc s (8 * (s.rd b).toNat) else []) d td ∧
            j.tile = x ∧ j.start = (s.rd c).toNat ∧ j.count = (s.rd b).toNat ∧ j.asid = s.co.asid ∧
            (∀ o, o < (rows.map (·.2)).sum → memGet d o = memGet u.mem (runByte rows o)) ∧
            (u.tileSegs w = [] → td = none) ∧
            (u.tileSegs w ≠ [] → ∃ l, td = some l ∧ ∀ o, o < tileBytes w.t → memGet l o = memGet u.mem (w.pa + o))) ∧
          v.clusters = u.clusters ∧ v.mem = u.mem ∧ (v.pkg (pkgOf s.focus)).locks = (u.pkg (pkgOf s.focus)).locks ++
            rangeLocks u.ids true 0 segs ++ rangeLocks (u.ids + 1) true 0 (u.tileSegs w))

/-- R39, R45, R49, R180, R189 to R192: MREAD writes the row's entries, each rounded once, to v[D], a signalling NaN setting NV, and
MREAD.pair each as a pair of f32; a row that carries an error mark takes cause 8, with a record where an entry's own error marked it;
a row that a job has yet to update is waited for in the vector queue, with nothing of it written, while the core goes on.
The model's own reading or choice in it: log 42 (the record's address) and log 36 (its KIND and UNIT). -/
def Sys2Proof.Claims.matrixReads : Prop :=
  ∀ (x : BitVec 3) (d b : Reg) (y : BitVec 7) (s : State) (row : Nat) (c : Cluster), s.VectorFree → s.MayCommit → s.haltWaits = false → s.Free [b] [] →
    row = (s.rd b).toNat → row ≤ 127 → c = s.cluster (clusterOf s.focus) →
    (s.rowPending (clusterOf s.focus) x.toNat row = true → ∀ i ∈ [Instr.mread x d b y, .mreadPair x d b], ∀ r : RowRead, rowRead i = some r →
      (∀ e ∈ r.ds, e.toNat < s.co.nregs) → (i = .mreadPair x d b → d.toNat + 1 < s.co.nregs) → r.w = s.co.width →
      ∃ (t : State) (k : Chunk) (e : VEntry), exec i s = .next t ∧ t.mem = s.mem ∧ t.clusters = s.clusters ∧ t.co.v = s.co.v ∧
        t.cur.waiting = some k ∧ k.after = some .read ∧ k.writes = s.cur.chunk.writes ∧ t.cur.vq = [e] ∧ e.ins = i ∧ e.a = s.rd b ∧
        Event.vectorQueueExecute s.focus ∈ t.flight ∧
        ∀ u : State, (u.core s.focus).vq = t.cur.vq → (u.core s.focus).waiting = some k →
          u.rowPending (clusterOf s.focus) x.toNat row = true →
          exec (.vectorQueueExecute s.focus) u = u.again (.vectorQueueExecute s.focus)) ∧
    (s.rowPending (clusterOf s.focus) x.toNat row = false →
    let marked := fun t : State => if x.toNat * 128 + row ∈ c.upsets then t.errorRecord (pkgOf s.focus) s.co.tenant 1
      (Config.accumulatorErrorAddress (clusterOf s.focus) (x.toNat * 128 + row)) s.co.cid 7 else t
    (d.toNat < s.co.nregs → tyWidth (y.extractLsb' 3 4).toNat = s.co.width →
      (x.toNat * 128 + row ∈ c.badRows → exec (.mread x d b y) s =
        .next (marked (s.takeTrap ⟨8, BitVec.ofNat 64 (x.toNat * 256 + row), 0, none⟩ s.co.pc))) ∧
      (x.toNat * 128 + row ∉ c.badRows →
        exec (.mread x d b y) s = .next (s.ended (s.setCo (s.co.vput d.toNat s.co.width
          (readRow (y.extractLsb' 3 4).toNat (s.co.rnd (y.extractLsb' 0 3).toNat) (c.accAt x.toNat row) s.co.vl.toNat)))) ∧
        (10 ≤ (y.extractLsb' 3 4).toNat → (y.extractLsb' 3 4).toNat ≤ 13 →
          readRow (y.extractLsb' 3 4).toNat (s.co.rnd (y.extractLsb' 0 3).toNat) (c.accAt x.toNat row) s.co.vl.toNat =
            (List.range (min s.co.vl.toNat 256)).map fun e => (e, (fmtOf (y.extractLsb' 3 4).toNat).round
              (s.co.rnd (y.extractLsb' 0 3).toNat e) (.val (a80Val (c.accAt x.toNat row e)))
                (if (a80Val (c.accAt x.toNat row e)).isSig then 0b10000 else 0))))) ∧
    (d.toNat + 1 < s.co.nregs → s.co.width = 32 →
      (x.toNat * 128 + row ∈ c.badRows → exec (.mreadPair x d b) s =
        .next (marked (s.takeTrap ⟨8, BitVec.ofNat 64 (x.toNat * 256 + row), 0, none⟩ s.co.pc))) ∧
      (x.toNat * 128 + row ∉ c.badRows → ∀ ps, ps = ((List.range (min s.co.vl.toNat 256)).map fun e => (e, pairOf (c.accAt x.toNat row e))) →
        exec (.mreadPair x d b) s = .next (s.ended (s.setCo ((s.co.vput d.toNat 32 (ps.map fun p => (p.1, p.2.1))).vput
          (d.toNat + 1) 32 (ps.map fun p => (p.1, p.2.2))))))))

/-- R172, R176 to R181, R189 to R193: the matrix instructions of a core.
The model's own reading or choice in it: logs 36 and 42. -/
def Obligations.MatrixInstructions : Prop := Claims.matrixJobs ∧ Claims.matrixReads

/-- R63, R178 to R188: the unit's events. An idle unit, and one that starts to stream, takes the job that the arbiter chose; a fill reads its
tile 2 KiB at a time; a start swaps the planes; a row update adds its chain to every entry of its row and changes no other;
MZERO and MWRITE write their row and clear its mark; the end of a job lets the granted one start; a bank's refresh begins
and ends at its times, and holds a fill that would read it.
The model's own reading or choice in it: logs 32 and 53. -/
def Obligations.MatrixUnitWorks : Prop :=
  ∀ (cl : Nat) (s : State) (c : Cluster), c = s.cluster cl →
    (exec (.jobGrant cl) s = .next (if c.unit.granted.isSome ∨ c.unit.running.isSome then s else s.grantNext cl)) ∧
    (s.arbiter cl = none → s.grantNext cl = s) ∧
    (∀ k ptr credit j rest t, s.arbiter cl = some (k, ptr, credit) → (s.core (cl * 8 + k)).jobs = j :: rest → t = s.grantNext cl →
      (t.cluster cl).unit.granted = some j ∧ (t.core (cl * 8 + k)).jobs = rest ∧
      (t.cluster cl).ptr = ptr ∧ (t.cluster cl).credit = credit ∧ t.mem = s.mem ∧ (t.cluster cl).acc = c.acc ∧
      (t.cluster cl).unit.running = c.unit.running ∧ (t.cluster cl).unit.filled = 0 ∧
      (if (t.cluster cl).unit.filling then Event.planeFillComplete cl ∈ t.flight else Event.jobStart cl ∈ t.flight)) ∧
    (∀ j p n q, c.unit.granted = some j → c.unit.shadow = some p → c.unit.filling = true → n = min 2048 (tileBytes p.w.t - c.unit.filled) →
      (s.fillHeld cl p.w c.unit.filled = true → exec (.planeFillComplete cl) s = s.again (.planeFillComplete cl)) ∧
      (s.fillHeld cl p.w c.unit.filled = false → s.firstFailing (p.w.pa + c.unit.filled) n = none →
        ∃ t, exec (.planeFillComplete cl) s = .next t ∧ t.mem = s.mem ∧ (t.cluster cl).unit.filled = c.unit.filled + n ∧
          ((t.cluster cl).unit.shadow = some q → q.w = p.w ∧ q.bad = p.bad ∧
            ((∀ x ∈ p.data, x.1 < c.unit.filled) → ∀ o, c.unit.filled ≤ o → o < c.unit.filled + n →
              memGet q.data o = (match j.kind with
                | .stream _ _ _ _ (some td) => memGet td o
                | _ => memGet s.mem (p.w.pa + o)))) ∧ (t.cluster cl).unit.shadow ≠ none ∧
          (if tileBytes p.w.t ≤ c.unit.filled + n then (t.cluster cl).unit.filling = false ∧ Event.jobStart cl ∈ t.flight ∧
              ∀ l ∈ (t.pkg (cl / 128)).locks, l.owner ≠ j.id + 1
            else (t.cluster cl).unit.filling = true ∧ Event.planeFillComplete cl ∈ t.flight))) ∧
    (∀ j, c.unit.granted = some j → c.unit.filling = false → c.unit.running = none → ∃ v : State,
      exec (.jobStart cl) s = .next (if j.streams then v.grantNext cl else v) ∧
      (v.cluster cl).unit.granted = none ∧ (v.cluster cl).unit.running = some j ∧ (v.cluster cl).unit.row = 0 ∧
      (v.cluster cl).unit.plane = (if j.streams = true ∧ c.unit.shadow.isSome = true then c.unit.shadow else c.unit.plane) ∧
      v.mem = s.mem ∧ (if j.streams then Event.rowUpdate cl ∈ v.flight else Event.zeroWriteRow cl ∈ v.flight)) ∧
    (∀ j p rows w acts data td n pas row, c.unit.running = some j → c.unit.plane = some p → j.kind = .stream rows w acts data td →
      n = columnBytes w.t → pas = (List.range n).map (fun o => runByte rows (c.unit.row * n + o)) → row = j.start + c.unit.row → row < 128 →
      ((∃ a ∈ pas, s.failing a = true) ∨ p.bad.isSome = true → ∃ t, exec (.rowUpdate cl) s = .next t ∧ (t.cluster cl).acc = c.acc ∧
        j.tile.toNat * 128 + row ∈ (t.cluster cl).badRows) ∧
      ((∀ a ∈ pas, s.failing a = false) → p.bad = none → ∃ t, exec (.rowUpdate cl) s = .next t ∧
        (t.cluster cl).unit.row = c.unit.row + 1 ∧ t.mem = s.mem ∧ (t.cluster cl).badRows = c.badRows ∧
        (if c.unit.row + 1 < j.count then Event.rowUpdate cl ∈ t.flight else Event.jobEnd cl ∈ t.flight) ∧
        ∀ x sa sw, x = (fun o => if o < n then memGet data (c.unit.row * n + o) else 0) →
          sa = (fun q => (fmtOf 12).value (acts.getD (8 * c.unit.row + q) 0).toNat) →
          sw = (fun k q => (fmtOf 12).value (w.scales.getD (q + 8 * (k / 128)) 0).toNat) →
          ∀ k, k = (if w.t = 14 then 2 else 1) → Claims.RowIs c (t.cluster cl) j.tile.toNat row fun e =>
            if e < tileN w.t * k then
              (chainOf w.t x (fun o => memGet p.data (e / k * n + o)) sa (sw (e / k)))[e % k]?.map fun v =>
                a80Add (a80Val (c.accAt j.tile.toNat row e)) (a80Val v)
            else none)) ∧
    (∀ j row, c.unit.running = some j → row = j.start + c.unit.row → row < 128 →
      (j.kind = .zero → ∃ t, exec (.zeroWriteRow cl) s = .next t ∧ (t.cluster cl).unit.row = c.unit.row + 1 ∧ t.mem = s.mem ∧
        j.tile.toNat * 128 + row ∉ (t.cluster cl).badRows ∧ Claims.RowIs c (t.cluster cl) j.tile.toNat row fun _ => some 0) ∧
      ∀ es, j.kind = .write es → (es.map (·.1)).Nodup → ∃ t, exec (.zeroWriteRow cl) s = .next t ∧ t.mem = s.mem ∧
        (t.cluster cl).unit.row = c.unit.row + 1 ∧ j.tile.toNat * 128 + row ∉ (t.cluster cl).badRows ∧
        ((∀ e ∈ es, e.1 < 256) → Claims.RowIs c (t.cluster cl) j.tile.toNat row fun e => (es.find? (·.1 == e)).map (·.2))) ∧
    (∀ j, c.unit.running = some j → j.count ≤ c.unit.row → ∃ v : State,
      exec (.jobEnd cl) s = .next (if c.unit.granted.isSome then v else v.grantNext cl) ∧ (v.cluster cl).unit.running = none ∧
      (v.cluster cl).unit.granted = c.unit.granted ∧ (v.cluster cl).acc = c.acc ∧ v.mem = s.mem ∧
      (c.unit.granted.isSome → Event.jobStart cl ∈ v.flight)) ∧
    ∀ die bank, (∃ t, exec (.granaryRefresh die bank) s = .next t ∧ t.mem = s.mem ∧ Event.granaryRefreshEnd die bank ∈ t.flight ∧
        ∀ b, t.refreshing die b = true ↔ b % 64 = bank % 64) ∧
      ∃ t, exec (.granaryRefreshEnd die bank) s = .next t ∧ t.refreshing die bank = false ∧ t.mem = s.mem

/-! ### Copies (R235 to R246, R281 to R283) -/

namespace Sys2Proof.Claims

/-- The state s' with a number taken for a copy, and with the element groups ps pending on it (R238, R243). -/
def copying (s' : State) (ps : List (Nat × Nat)) : State :=
  { s' with ids := s'.ids + 1 }.setExt { s'.ext with vpend := s'.ext.vpend ++ ps.map fun (x : Nat × Nat) => (⟨s'.ids, x.1, x.2⟩ : Pend) }

/-- The copy command c, for which s' is the state at its issue, has a place of the engine, and no range, table, sole chunk or plane fill
holds its registration (R238, R239, R252, R260, R330). -/
def CopyReady (s' : State) (d : Reg) (c : CopyCommand) (ps : List (Nat × Nat)) : Prop :=
  s'.MayCommit ∧ s'.enginePlace = true ∧ (s'.ended (copying s' ps)).commandHeld s'.ids d c = false

/-- The state after it: its chunk has committed and its copy is registered. -/
def copied (s' : State) (d : Reg) (c : CopyCommand) (ps : List (Nat × Nat)) : State :=
  (s'.ended (copying s' ps)).startCommand s'.ids d c

/-- A copy of memory to memory by a descriptor. -/
def plain (x : Desc) : CopyCommand := .described x ⟨0, 0, none, none⟩

end Sys2Proof.Claims

/-- R237 to R246, R281: each copy command reads its descriptor in the chunk, takes a place of the engine, ends the chunk with the
registration, leaves s[D] pending, and changes no byte of memory itself; where the registration must wait the chunk waits with it; CPYB
reports which of its descriptors were taken; CSEAL seals the open batch, one whose copies are all complete without leaving it
outstanding; XBSWAP counts its exchange. A vector register that D does not declare takes cause 1, whatever the scalar registers hold, a
group that is not set cause 11.
The model's own reading or choice in it: log 26, and log 5 for what waits with its chunk. -/
def Obligations.CopyCommands : Prop :=
  ∀ (d a b c : Reg) (n : BitVec 3) (s : State), s.VectorFree →
    (s.Free [a] [d] → ∀ t x, s.readDesc (s.rd a) = .ok t x → ∀ s', s' = t.setCo (t.co.setPend d) →
      (Claims.CopyReady s' d (Claims.plain x) [] → ∀ v, v = Claims.copied s' d (Claims.plain x) [] →
        exec (.cpyMem d a) s = .next v ∧ v.mem = (s'.ended s').mem ∧ ∃ k, k ∈ (v.cluster (clusterOf s.focus)).copies ∧
          k.reg = d ∧ k.started = false ∧ Event.copyStart (clusterOf s.focus) k.id ∈ v.flight) ∧
      (s'.enginePlace = false → exec (.cpyMem d a) s = .next s.stall) ∧
      (s'.MayCommit → s'.enginePlace = true → (s'.ended (Claims.copying s' [])).commandHeld s'.ids d (Claims.plain x) = true →
        ∃ v k, exec (.cpyMem d a) s = .next v ∧ v.mem = s.mem ∧ v.clusters = s.clusters ∧ v.cur.waiting = some k ∧
          k.after = some (.copy s'.ids d (Claims.plain x)) ∧ k.writes = s.cur.chunk.writes ∧ Event.chunkCommit s.focus ∈ v.flight)) ∧
    (s.Free [] [d] → (a.toNat < s.co.nregs → ∀ x, x = Desc.of (s.co.vread a.toNat 0 256) → ∀ s', s' = s.setCo (s.co.setPend d) →
        (Claims.CopyReady s' d (Claims.plain x) [] → exec (.cpyVec d a) s = .next (Claims.copied s' d (Claims.plain x) [])) ∧
        ∀ (masked : Bool) (mr : BitVec 3), s'.MayCommit → ∀ l, l = ((List.range 8).filterMap fun j =>
            if masked && !s.co.mbit mr j then none else some (j, Desc.of (s.co.vread a.toNat (256 * j) 256))) →
          ((s'.ended s').offerCopies l = none → ∃ v k, exec (.cpyb d a masked mr) s = .next v ∧ v.mem = s.mem ∧
            v.clusters = s.clusters ∧ v.cur.waiting = some k ∧ k.after = some (.copies d l) ∧ Event.chunkCommit s.focus ∈ v.flight) ∧
          ∀ r, (s'.ended s').offerCopies l = some r →
            exec (.cpyb d a masked mr) s = .next (r.1.complete (s'.ended s').who d (BitVec.ofNat 64 r.2) none))) ∧
    (s.co.nregs ≤ a.toNat → exec (.cpyVec d a) s = .next (s.takeTrap ⟨1, instrVal (.cpyVec d a), 0, none⟩ s.co.pc)) ∧
    (s.co.nregs ≤ a.toNat + n.toNat → exec (.cpyvl d a b n) s = .next (s.takeTrap ⟨1, instrVal (.cpyvl d a b n), 0, none⟩ s.co.pc)) ∧
    (s.Free [b] [d] → a.toNat + n.toNat + 1 ≤ s.co.nregs →
      (∀ t x, s.readDesc (s.rd b) = .ok t x →
        (∀ s' k ps, s' = t.setCo ((t.co.legacyMask x).setPend d) → k = ⟨1, a.toNat, none, some ((n.toNat + 1) * s.co.vbytes)⟩ →
          ps = (if (t.planCopy 0 d x k).1.status = 2 then []
            else (imageGroups x).map fun g => (a.toNat + 256 * g / s.co.vbytes, 256 * g % s.co.vbytes / 256)) →
          Claims.CopyReady s' d (.described x k) ps → exec (.cpyvl d a b n) s = .next (Claims.copied s' d (.described x k) ps)) ∧
        ∀ s' k, s' = t.setCo (t.co.setPend d) → k = ⟨2, a.toNat, some (s.co.vread a.toNat 0 ((n.toNat + 1) * s.co.vbytes)), none⟩ →
          Claims.CopyReady s' d (.described x k) [] → exec (.cpyvs d a b n) s = .next (Claims.copied s' d (.described x k) [])) ∧
      ∀ s' k, s' = s.setCo (s.co.setPend d) → k = .registers c.toNat (s.co.leadGroups a.toNat (n.toNat + 1)) ((s.rd b).setWidth 32) →
        Claims.CopyReady s' d k [] → exec (.cpyrr d a b c n) s = .next (Claims.copied s' d k [])) ∧
    (s.Free [b] [d] → a.toNat < s.co.nregs → ∀ s' g k, s' = s.setCo (s.co.setPend d) → s.co.g[c.toNat % 8]? = some g →
      k = .group a.toNat g (s.rd b) s.co.vl ((s.co.vl.toNat * s.co.width + 7) / 8) →
      Claims.CopyReady s' d k [] → exec (.cpyvg d a b c) s = .next (Claims.copied s' d k [])) ∧
    (s.MayCommit → (s.ext.openB = none → exec .cseal s = .next (s.ended s)) ∧
      ∀ x : Batch, s.ext.openB = some x → s.ext.sealedB.length < 16 → x.left ≠ 0 → ∃ t, exec .cseal s = .next t ∧ t.ext.openB = none ∧
        t.ext.sealedB = s.ext.sealedB ++ [x] ∧ t.co = (s.ended s).co) ∧
    (s.MayCommit → ∀ x : Batch, s.ext.openB = some x → x.left = 0 → ∃ t, exec .cseal s = .next t ∧ t.ext.openB = none ∧
        t.ext.sealedB = s.ext.sealedB ∧ t.co = (s.ended s).co) ∧
    ∀ (p : BitVec 6) (y : BitVec 7), s.Free [a, b] [d] →
      ∀ g : Grp, s.co.g[c.toNat % 8]? = some g →
      (g.valid = false → exec (.xbswap d a b c p y) s = .next (s.takeTrap ⟨11, 1, 0, none⟩ s.co.pc)) ∧
      ∀ t bs, g.valid = true → s.chunkRead (g.table + BitVec.ofNat 64 (8 * g.rank.toNat)) 8 = .ok t bs →
        (leNat (bs.take 4) ≠ s.co.cid.toNat →
          Claims.Alike s t ∧ exec (.xbswap d a b c p y) s = .next (t.takeTrap ⟨11, 5, 0, none⟩ s.co.pc)) ∧
        (leNat (bs.take 4) = s.co.cid.toNat → ∀ s' k, s'.co.g[c.toNat % 8]? = some { g with swaps := g.swaps + 1 } →
          s' = t.setCo { s.co.setPend d with g := s'.co.g } → (∀ i, i ≠ c.toNat % 8 → s'.co.g[i]? = s.co.g[i]?) →
          k = .swap g (s.rd a) (s.rd b).toNat p.toNat (2 ^ (y.extractLsb' 4 3).toNat) (y.extractLsb' 0 4).toNat →
          Claims.CopyReady s' d k [] → exec (.xbswap d a b c p y) s = .next (Claims.copied s' d k []))

/-- R236 to R238, R240, R242: what a descriptor comes to. One that R237 rejects has STATUS 2 and nothing to move. Of any other the
engine has to move every in-bounds element, in coordinate order, as memory stood at the registration, and STATUS is 1 where some
element is out of bounds, else 0. It moves the elements of the pages that it has reached, the bytes of each from its
source to its destination; where one cannot be read or written the copy ends with its status, those before it moved. -/
def Sys2Proof.Claims.descriptorsMoveTheirElements : Prop :=
  (∀ (s : State) (id : Nat) (d : Reg) (x : Desc), x.pref = false → ∀ c, c = (s.planCopy id d x ⟨0, 0, none, none⟩).1 → c.writes = [] ∧
    (s.rejects s.engineSpace s.co.grant x none none = true → c.status = 2 ∧ c.work = none) ∧
    (s.rejects s.engineSpace s.co.grant x none none = false → (c.status = if x.inside = x.total then 0 else 1) ∧ c.swap = none ∧
      ∃ w, c.work = some w ∧ w.todo = x.elements.map (fun e => (e.1, e.2, x.es)) ∧ w.mem = s.mem ∧ w.asid = s.co.asid ∧
        w.mode = s.cur.chunk.start.mode ∧ w.image = none ∧ w.into = false ∧ w.pref = false ∧ w.group = none) ∧
    x.elements.length = x.inside ∧
    ∀ e ∈ x.elements, ∃ cs : List Nat, cs.length = x.ndim ∧ (∀ (j i : Nat), cs[j]? = some i →
        (x.span j).1 ≤ i ∧ i < (x.span j).1 + (x.span j).2) ∧
      e = (strided x.src cs x.sstr, strided x.dst cs x.dstr)) ∧
  ∀ (s : State) (cl : Nat) (c : Copy) (w : Work) (l r : List (Word × Word × Nat)) (src : Word × Word × Nat → List Byte)
    (dst : Word × Word × Nat → List Pa) (covers : Word → Bool) (page : Nat × Nat),
    c.swap = none → c.kind ≠ 4 → w.group = none → w.image = none → w.into = false → w.pref = false → w.todo = l ++ r →
    covers = (fun x => w.dests.any fun d => (x - d.1).toNat < d.2) → (w.todo.map elementPage).head? = some page →
    (∀ e ∈ l, elementPage e = page ∧ s.copyRead (c.space cl w) w.mem e.1 e.2.2 = .ok (some (src e)) ∧
      s.copyDest (c.space cl w) w.gran covers e.2.1 e.2.2 = .ok (dst e)) →
    ∀ c', c' = s.workOn cl c w →
      (∀ e t, r = e :: t → elementPage e = page → ∀ x, s.copyRead (c.space cl w) w.mem e.1 e.2.2 = .error x ∨
          (∃ bs, s.copyRead (c.space cl w) w.mem e.1 e.2.2 = .ok (some bs) ∧ s.copyDest (c.space cl w) w.gran covers e.2.1 e.2.2 = .error x) →
        c'.writes = c.writes ++ l.flatMap (fun e => (dst e).zip (src e)) ∧ c'.status = x.1 ∧ c'.bad = x.2 ∧ c'.work = none) ∧
      ((∀ e t, r = e :: t → elementPage e ≠ page) →
        c'.writes = c.writes ++ l.flatMap (fun e => (dst e).zip (src e)) ∧ c'.status = c.status ∧
        c'.bytes = c.bytes + (l.map fun e => (src e).length).sum ∧ c'.work = if r = [] then none else some { w with todo := r })

/-- R195, R238 to R246, R258, R262, R282, R283, R305: the engine's events. A registration that has lacked locks for 4,096 cycles completes with
STATUS 5. Copies start in order; each performing of a start moves what the engine has reached, once the pages are translated, and the one
that moves the last leads to the end that its kind takes. A completion sends the writes to other packages, each run of bytes in a line on
its own; when all are over it makes every write in its package visible and releases the locks; then, in this order, its token is signalled
with the bytes, its register is completed and its batch counts it. A clip message goes first, or is tried again; deliveries and exchanges
reach the registers and halves that they name. -/
def Sys2Proof.Claims.copyEngineWorks : Prop :=
  ∀ (cl id : Nat) (g : CoreId) (grp : Nat) (s : State),
    (∀ (k : Chunk) (n : Nat) (d : Reg) (x : CopyCommand) (t : Nat) (u : State), (s.core g).waiting = some k → k.after = some (.copy n d x) →
      k.since = some t → u = { s.commitWaiting g k with focus := g } →
      (s.elapsed - t < 4096 → exec (.copyLockTimeout g) s = s.again (.copyLockTimeout g)) ∧
      (4096 ≤ s.elapsed - t → s.waitingHeld g k = false → s.PlainChunk k → u.commandLacks n d x = true →
        ∃ v, exec (.copyLockTimeout g) s = .next v ∧ v.mem = memPuts s.mem k.writes ∧ (v.core g).waiting = none ∧
          ∃ y ∈ (v.cluster (clusterOf g)).copies, y.id = n ∧ y.reg = d ∧ y.status = 5 ∧ y.writes = [] ∧ y.work = none)) ∧
    ∀ c : Copy, s.copy? cl id = some c → c.id = id →
      ((((s.cluster cl).copies.takeWhile (·.id != id)).any (!·.started)) = true → exec (.copyStart cl id) s = s.again (.copyStart cl id)) ∧
      ((((s.cluster cl).copies.takeWhile (·.id != id)).any (!·.started)) = false →
        (∀ w va, c.work = some w → s.engineWait cl c w = some va →
          exec (.copyStart cl id) s = (s.engineAsks cl w.asid va).again (.copyStart cl id)) ∧
        ((∀ w, c.work = some w → s.engineWait cl c w = none) → ∀ c1, c1 = c.work.elim { c with started := true } (s.workOn cl { c with started := true }) →
        ∃ t, exec (.copyStart cl id) s = .next t ∧ t.mem = s.mem ∧ t.copy? cl id = some c1 ∧
          (c1.work.isSome = true → Event.copyStart cl id ∈ t.flight) ∧
          (c1.work = none →
            (c1.status = 2 ∨ c1.status = 5 ∨ (c1.kind ∈ [0, 2] ∧ c1.status ≤ 1) → Event.copyCompletion cl id ∈ t.flight) ∧
            (c1.kind ≠ 3 → c1.status = 3 ∨ c1.status = 4 → c1.swap = none → Event.copyFaultEnd cl id ∈ t.flight) ∧
            (c1.kind = 1 → c1.status ≤ 1 → Event.copyCompletion cl id ∈ t.flight ∧
              ∀ w ∈ c1.writes, Event.elementGroupArrival cl id (w.1 / 256) ∈ t.flight) ∧
            (c1.kind ∈ [3, 4] → c1.status = 0 → Event.registerCopyDelivery cl id ∈ t.flight) ∧
            (c1.kind = 5 → c1.status = 0 → c1.swap ≠ none → Event.xbswapRendezvous cl id ∈ t.flight)))) ∧
      (∃ t, exec (.copyFaultEnd cl id) s = .next t ∧ Event.copyCompletion cl id ∈ t.flight ∧
        (c.bad = none → t = s.post (.copyCompletion cl id))) ∧
      (c.msg = none → exec (.clipMessageRetry cl id) s = .next (s.copyDone cl c) ∧
        (c.kind ≠ 1 → c.away = [] → (∀ w ∈ c.writes, paPkg w.1 = cl / 128) → (s.pkg (cl / 128)).on = true →
          (∀ w ∈ c.whole, ∀ x ∈ (s.pkg (cl / 128)).watches, x.1 ≠ w.1) →
          ∃ v : State, exec (.copyCompletion cl id) s = .next (v.copyDone cl { c with writes := [], whole := [], landed := true }) ∧
            v.mem = memPuts s.mem c.writes ∧ ∀ l ∈ (v.pkg (cl / 128)).locks, l.owner ≠ id)) ∧
      (c.kind ≠ 1 → c.sent = false → (∃ w ∈ c.writes, paPkg w.1 ≠ cl / 128) → ∃ t, exec (.copyCompletion cl id) s = .next t ∧ t.mem = s.mem ∧
        Event.copyCompletion cl id ∈ t.flight ∧
        (∃ x : Copy, t.copy? cl id = some x ∧ x.sent = true ∧ x.writes = c.writes.filter (fun w => paPkg w.1 == cl / 128)) ∧
        ∀ r ∈ lineRuns (c.writes.filter fun w => paPkg w.1 != cl / 128), ∃ q : Req,
          Event.remoteWriteAtHome c.who r.1 r.2.length (leNat r.2) q ∈ t.flight) ∧
      (c.kind ≠ 1 → c.sent = true → c.away ≠ [] → exec (.copyCompletion cl id) s = s.again (.copyCompletion cl id)) ∧
      (∃ v : State, v.mem = s.mem ∧ v.copy? cl id = none ∧ v.cores = s.cores ∧
        s.copyDone cl c = ((v.copySignal cl c).complete c.who c.reg (completionWord c.status c.bytes) none).batchDone c) ∧
      (c.token = none ∨ c.status = 2 ∨ c.status = 5 → s.copySignal cl c = s) ∧
      (∀ p, c.token = some p → c.status ≠ 2 → c.status ≠ 5 → s.copySignal cl c = if paPkg p = cl / 128
        then s.tokenOp (.unit (cl / 128) c.tenant c.cid) p fun w => Claims.signalled w (-(c.bytes : Int))
        else s.post (.tokenSignalAtHome (.unit (cl / 128) c.tenant c.cid) p (-(c.bytes : Int)))) ∧
      ((s.core c.who.core).running = some c.who.slot → ((s.core c.who.core).slot c.who.slot).gen = c.who.gen →
        ∃ e, e = (s.batchDone c).extOf c.who ∧ (s.batchDone c).mem = s.mem ∧
          e.map (·.openB) = some ((s.core c.who.core).ext.openB.map fun b => if b.id = c.batch then { b with left := b.left - 1 } else b)) ∧
      (∀ m, c.msg = some m → (s.core c.who.core).running = some c.who.slot →
        ((s.core c.who.core).mailbox.length < 64 → (s.core c.who.core).handler = none → ∃ t, exec (.clipMessageRetry cl id) s = .next t ∧
          (t.core c.who.core).mailbox = (s.core c.who.core).mailbox ++ [⟨1, c.who.slot, c.cid, c.message m⟩] ∧ t.copy? cl id = none) ∧
        (64 ≤ (s.core c.who.core).mailbox.length → ∃ t, exec (.clipMessageRetry cl id) s = .next t ∧
          Event.clipMessageRetry cl id ∈ t.flight ∧ t.copy? cl id = some c)) ∧
      ((s.core c.who.core).running = some c.who.slot → ((s.core c.who.core).slot c.who.slot).gen = c.who.gen → c.kind = 1 →
        ∃ t, exec (.elementGroupArrival cl id grp) s = .next t ∧ t.mem = s.mem ∧
          (t.core c.who.core).co = (s.core c.who.core).co.putImage c.vreg (c.writes.filter fun w => w.1 / 256 == grp) ∧
          ∀ p ∈ (t.core c.who.core).ext.vpend, ∀ rb, rb = (s.core c.who.core).co.vbytes →
            ¬(p.id = id ∧ p.reg = c.vreg + 256 * grp / rb ∧ p.grp = 256 * grp % rb / 256)) ∧
      (∀ (dst : BitVec 32) k, c.dsts = [dst] → k = s.core (cidCore dst) → c.kind = 4 ∨ pkgOf (cidCore dst) = cl / 128 → dst.toNat % 4 = 0 →
        (k.deliverable (cidSlot dst) c = true → k.running = some (cidSlot dst) → ∃ t, exec (.registerCopyDelivery cl id) s = .next t ∧
          (t.core (cidCore dst)).co = c.groups.foldl (fun co x => co.vwrite (c.vreg + x.1) (256 * x.2.1) x.2.2) k.co ∧
          (∃ x, t.copy? cl id = some x ∧ x.status = 0) ∧ Event.copyCompletion cl id ∈ t.flight) ∧
        (k.deliverable (cidSlot dst) c = false → ∃ t, exec (.registerCopyDelivery cl id) s = .next t ∧ t.cores = s.cores ∧
          (∃ x, t.copy? cl id = some x ∧ x.status = 2) ∧ Event.copyCompletion cl id ∈ t.flight)) ∧
      (∀ w, c.swap = some w → s.partnerUp cl w = false → exec (.xbswapRendezvous cl id) s = s.again (.xbswapRendezvous cl id)) ∧
      ∀ w v (x : Copy) cl2 same, c.swap = some w → s.partnerUp cl w = true → s.swapPartner w = some (x, v) → cl2 = clusterOf (cidCore w.partner) →
        cl2 ≠ cl ∨ x.id ≠ id → same = (w.m = v.m ∧ w.es = v.es ∧ w.p = v.p ∧ w.q = v.q) →
        (same → x.work.isSome = true → exec (.xbswapRendezvous cl id) s = s.again (.xbswapRendezvous cl id)) ∧
        (x.work = none → ∃ t, exec (.xbswapRendezvous cl id) s = .next t ∧ t.mem = s.mem ∧
          ∃ c', t.copy? cl id = some c' ∧ c'.swap = none ∧
            (same → c'.status = (if c.status = 0 ∧ x.status ≠ 0 then 2 else c.status) ∧ c'.writes = (swapWrites w.places v.send).flatten) ∧
            (¬same → c'.status = 2 ∧ c'.writes = c.writes))

/-- R236 to R245, R281 to R283: what descriptors move, and the events of the copy engine.
The model's own reading or choice in it: logs 14, 15, 26 and 56. -/
def Obligations.CopiesMoveTheirData : Prop := Claims.descriptorsMoveTheirElements ∧ Claims.copyEngineWorks

/-! ### Groups and collectives (R267 to R278) -/

/-- R267 to R270: GSET makes its checks in their order, reads its table in the chunk and sets the group register with the
coroutine's own rank; GRANK and GSIZE read it, all ones and 0 where it is not set. -/
def Sys2Proof.Claims.groupRegisters : Prop :=
  ∀ (d a b : Reg) (s : State), s.Free [a, b] [] →
    let trap := fun code : Word => Host.Outcome.next (s.takeTrap ⟨11, code, 0, none⟩ s.co.pc)
    let size := (s.rd b).toNat
    let taken := ∃ (k : Nat) (g : Grp), k ≠ d.toNat % 8 ∧ s.co.g[k]? = some g ∧ g.valid = true ∧ g.table = s.rd a
    (size = 0 ∨ 4096 < size → exec (.gset d a b) s = trap 2) ∧
    (1 ≤ size → size ≤ 4096 →
      ((s.rd a).toNat % 64 ≠ 0 → exec (.gset d a b) s = trap 3) ∧
      ((s.rd a).toNat % 64 = 0 → taken → exec (.gset d a b) s = trap 6) ∧
      ((s.rd a).toNat % 64 = 0 → ¬taken → ∀ t ms, s.readMembers (s.rd a) 0 size = .ok t ms →
        (s.co.cid ∉ ms → exec (.gset d a b) s = trap 4) ∧
        (s.co.cid ∈ ms → ∃ u : State, exec (.gset d a b) s = .next u.retire ∧ u.mem = s.mem ∧
          u.co.g[d.toNat % 8]? = some ⟨s.rd a, 0, true, BitVec.ofNat 12 (ms.idxOf s.co.cid), BitVec.ofNat 13 size, 0⟩ ∧
          u.co = { s.co with g := u.co.g } ∧ ∀ k, k ≠ d.toNat % 8 → u.co.g[k]? = s.co.g[k]?))) ∧
    ∀ (r x : Reg) (g : Grp), s.Free [] [r] → s.co.g[x.toNat % 8]? = some g →
      exec (.grank r x) s = .next (s.wr r (if g.valid then g.rank.setWidth 64 else -1)).retire ∧
      exec (.gsize r x) s = .next (s.wr r (if g.valid then g.size.setWidth 64 else 0)).retire

/-- R271 to R278: each VCOLL checks its group and its own place in it, captures its active elements, ends its chunk, counts its
number in the group register, leaves s[C] pending and sends its openings. A packet is taken in when the member is ready
for it, else kept; a finished collective writes its result to the registers of its coroutine and completes s[C]. -/
def Sys2Proof.Claims.collectivesRun : Prop :=
  (∀ x ∈ [(Instr.vallred, 0), (.vredscat, 1), (.vallgath, 2), (.vbcast, 3), (.vall2all, 4)], ∀ (o : V32) (s : State) (g : Grp),
    s.VectorFree → s.Free [] [o.c] → Claims.vok s o ([o.d, o.a] ++ if x.2 = 4 then [o.b] else []) → s.co.g[o.x.toNat]? = some g →
    (g.valid = false → exec (x.1 o) s = .next (s.takeTrap ⟨11, 1, 0, none⟩ s.co.pc)) ∧
    ∀ t ms, g.valid = true → s.readMembers g.table 0 g.size.toNat = .ok t ms →
      (ms.getD g.rank.toNat 0 ≠ s.co.cid → exec (x.1 o) s = .next (s.takeTrap ⟨11, 5, 0, none⟩ s.co.pc)) ∧
      (ms.getD g.rank.toNat 0 = s.co.cid → s.cur.bufferUsed + groupBytes s.co.vl.toNat (tyWidth o.t.toNat) ≤ 262144 → s.MayCommit →
        ∃ u, u.co = { s.co.setPend o.c with vstart := 0, g := u.co.g } ∧ u.co.g[o.x.toNat]? = some { g with seq := g.seq + 1 } ∧
          (∀ k, k ≠ o.x.toNat → u.co.g[k]? = s.co.g[k]?) ∧ u.mem = s.mem ∧ u.ids = s.ids + 1 ∧
          exec (x.1 o) s = .next ((s.ended u).startColl (s.newColl x.2 o g ms)))) ∧
  (∀ (dst : BitVec 32) (p : Packet) (s : State) (k : Core), k = s.core (cidCore dst) → (s.pkg (pkgOf (cidCore dst))).on = true →
    s.mailboxOpen (pkgOf p.sender.core) p.tenant dst = true → (k.slot (cidSlot dst)).st ≠ .free →
    ∀ i ∈ [Instr.collectivePacket dst p, .collectiveRetry dst p],
      (∀ c, k.colls.find? (·.takes dst p) = some c → p.kind = 3 ∨ (p.kind < 2 ∧ c.ready p = true) →
        exec i s = .next ((s.setCore (cidCore dst) (k.setColl { c with got := c.got ++ [p] })).advanceColl (cidCore dst) c.id)) ∧
      (k.colls.find? (·.takes dst p) = none → p.kind < 2 → k.bufferUsed + groupBytes p.elems.length (tyWidth p.t.toNat) ≤ 262144 →
        exec i s = .next (s.setCore (cidCore dst) { k with packets := k.packets ++ [(dst, p)] })) ∧
      (k.colls.find? (·.takes dst p) = none → p.kind < 2 → 262144 < k.bufferUsed + groupBytes p.elems.length (tyWidth p.t.toNat) →
        ∃ t, exec i s = .next t ∧ t.cores = s.cores ∧ Event.collectiveRetry dst p ∈ t.flight)) ∧
  ∀ (g : CoreId) (id : Nat) (s : State) (c : Collective), (s.core g).coll id = some c → c.done = true → c.who.core = g → c.id = id →
    (s.core g).running = some c.who.slot → ((s.core g).slot c.who.slot).gen = c.who.gen → (c.told = false → ∀ r, c.verdict ≠ some (3, r)) →
    ∃ t, exec (.collectiveMerge g id) s = .next t ∧ (t.core g).coll id = none ∧ t.mem = s.mem ∧
      (t.core g).co = c.mergeInto (if c.told = false ∧ (s.core g).co.isPend c.reg = true then (s.core g).co.wr c.reg c.word else (s.core g).co)

/-- R268 to R280: group registers, and collectives from their issue to their merge.
The model's own reading or choice in it: log 34. -/
def Obligations.GroupsAndCollectives : Prop := Claims.groupRegisters ∧ Claims.collectivesRun

/-! ### Cores, contexts, walks and homes (R15, R97 to R101, R201 to R221, R234, R251 to R264, R304 to R309, R339) -/

namespace Sys2Proof.Claims

/-- The base of the line of an address (R12). -/
def lineStart (a : Word) : Word := a - BitVec.ofNat 64 (a.toNat % 64)

/-- An invalidation command reaches the translations of an ASID: one of the command's scope, in a tenant's command one of its ASIDs
(R306). -/
def reachesAsid (s : State) (p : Nat) (t : Option (BitVec 6)) (w : Word) (asid : BitVec 14) : Bool :=
  (match t with
    | none => true
    | some t => s.asidTenant p asid == t.toNat) &&
  match (w.extractLsb' 62 2).toNat with
    | 0 => asid == w.extractLsb' 0 14
    | 1 => asid == w.extractLsb' 0 14
    | 2 => true
    | _ => false

/-- It reaches a leaf of the ASID: in scope 0 the one that serves the address (R306). -/
def invalidates (s : State) (p : Nat) (t : Option (BitVec 6)) (va w : Word) (e : Tlb) : Bool :=
  reachesAsid s p t w e.asid && (w.extractLsb' 62 2 != 0 || e.hits e.asid va)

/-- The register of the coroutine that the tag names holds a completion and is pending no more (R195, R199). -/
def Completed (t : State) (w : Who) (r : Reg) (v : Word) : Prop :=
  let c := t.core w.core
  let co := if c.running = some w.slot then c.co else (c.slot w.slot).co
  co.rd r = v ∧ co.isPend r = false

/-- The coroutine of a tag is there, and a register of it is pending (R195). -/
def Awaits (s : State) (w : Who) (r : Reg) : Prop :=
  ((s.core w.core).slot w.slot).gen = w.gen ∧
    (if (s.core w.core).running = some w.slot then (s.core w.core).co else ((s.core w.core).slot w.slot).co).isPend r = true

/-- A request of a coroutine is served at the home of n bytes: it has power, its owner's chunk has written none of them, the
package admits the request, and no byte fails (R254, R340, R366). -/
def Served (s : State) (w : Who) (tenant : BitVec 6) (pa n : Nat) : Prop :=
  (s.pkg (paPkg pa)).on = true ∧ s.readBusy pa n = false ∧ s.admits (pkgOf w.core) tenant pa n = true ∧
  (∀ i, i < n → s.failing (pa + i) = false) ∧ s.mergesFailing pa n = false ∧ Memory.wf s.mem = true

/-- No wake watch is set on the bytes: a write of a watched word arms a promotion token besides (R350). -/
def Unwatched (s : State) (pa n : Nat) : Prop := ∀ k, k < n → ∀ x ∈ (s.pkg (paPkg (pa + k))).watches, x.1 ≠ pa + k

/-- n bytes of memory hold the number v, and no other byte has changed. -/
def Holds (s t : State) (pa n v : Nat) : Prop :=
  memBytes t.mem pa n = leBytes n v ∧ ∀ a, a < pa ∨ pa + n ≤ a → memGet t.mem a = memGet s.mem a

/-- The new value of an AMO's location by its F field (R98). -/
def amoValue (f : Nat) (w : Nat) (m x y : BitVec w) : BitVec w :=
  match f with
  | 0 => m + x
  | 1 => m &&& x
  | 2 => m ||| x
  | 3 => m ^^^ x
  | 4 => if BitVec.slt x m then x else m
  | 5 => if BitVec.slt m x then x else m
  | 6 => if BitVec.ult x m then x else m
  | 7 => if BitVec.ult m x then x else m
  | 8 => x
  | _ => if m = y then x else m

end Sys2Proof.Claims

/-- R15, R76, R201, R205, R206, R221, R247, R250, R252, R255, R309: the events of a core. It fetches ahead; its chunk that waits commits
once no sole-mode chunk would be squashed, and an error in a speculative line takes the coroutine back to that chunk's start; it gets the sole grant in
turn; an expired quantum restarts, or ends in a full context; it resumes the signalled coroutine of the highest class, the first in
order; a refill puts a context back, and one that lacks room holds up no other; a spill leaves the spillway; a core that has been quiet
for its interval reports once; a prefetch is requested, arrives, or goes unused.
The model's own reading or choice in it: logs 12 and 43, and log 20 that a run-ahead line whose bytes fail, or whose package is off or does not
admit it, is held as failed. -/
def Obligations.CoreEventsWork : Prop :=
  ∀ (g : CoreId) (s : State) (c : Core), c = s.core g →
    (∀ (va base pc : Word) (sp : Space), base = Claims.lineStart va → pc = Claims.lineStart c.co.pc → c.running ≠ none → c.ahead.length < 4 →
      1 ≤ (base - pc).toNat → (base - pc).toNat ≤ 256 → (∀ l ∈ c.ahead, ¬(l.va = base ∧ l.asid = c.co.asid)) →
      sp = { s.spaceOf g with ahead := true } →
      (s.mustWalk sp base = true → ∃ t, exec (.runAheadFetch g va) s = .next t ∧ Event.runAheadFetch g va ∈ t.flight ∧
        (t.core g).ahead = c.ahead ∧ t.mem = s.mem ∧ t.pkg (pkgOf g) = (s.pkg (pkgOf g)).ask (.ahead g) c.co.asid base) ∧
      (s.mustWalk sp base = false → ∃ (t : State) (l : Line), exec (.runAheadFetch g va) s = .next t ∧ (t.core g).ahead = c.ahead ++ [l] ∧
        l.va = base ∧ l.asid = c.co.asid ∧ ((s.aheadLine g sp base).2 = none → t.mem = s.mem ∧ (t.core g).co = c.co) ∧
        (∀ e, s.translate sp .fetch base 64 = .error e → l.bytes = none) ∧
        ∀ segs, s.translate sp .fetch base 64 = .ok segs → (l.user = true ↔ ∀ x ∈ segs, x.u = true) ∧
          (s.lineUnfit segs = true ∨ s.lineBarred g segs = true ∨ (∃ a ∈ segBytes segs, s.failing a = true) → l.bytes = none) ∧
          (s.lineUnfit segs = false → s.lineBarred g segs = false → (∀ a ∈ segBytes segs, s.failing a = false) →
            l.bytes = some ((segBytes segs).map (memGet s.mem))))) ∧
    (c.waiting = none → exec (.chunkCommit g) s = .next s) ∧
    (∀ k, c.waiting = some k →
      (s.soleBlocks (pkgOf g) (some g) k.wrote = true → ∃ t, exec (.chunkCommit g) s = .next t ∧ t.cores = s.cores ∧ t.mem = s.mem ∧
        Event.chunkCommit g ∈ t.flight) ∧
      ((∃ e ∈ c.vq, e.early = true) → ∃ t, exec (.chunkCommit g) s = .next t ∧ t.cores = s.cores ∧ t.mem = s.mem ∧
        Event.chunkCommit g ∈ t.flight) ∧
      (s.soleBlocks (pkgOf g) (some g) k.wrote = false → (∀ e ∈ c.vq, e.early = false) → s.PlainChunk k → k.mloads = [] →
        (k.after = none → ∃ t, exec (.chunkCommit g) s = .next t ∧
          t.mem = memPuts s.mem k.writes ∧ (t.core g).waiting = none ∧
          (t.core g).co = k.compl.foldl (fun c x => c.wr x.1 x.2) c.co ∧ (t.core g).chunk.writes = c.chunk.writes ∧
          (t.core g).chunk.start = k.compl.foldl (fun c x => c.wr x.1 x.2) c.chunk.start ∧
          ∀ p ∈ k.posts, ∃ n, p.ev.numbered n ∈ t.flight) ∧
        ∀ a (u : State), k.after = some a → u = { s.commitWaiting g k with focus := g } → (∀ m, a ≠ .takeMessage m) →
          (u.afterHeld a = false → exec (.chunkCommit g) s = .next { u.runAfter a with focus := s.focus }) ∧
          (u.afterHeld a = true → ∃ t, exec (.chunkCommit g) s = .next t ∧ t.mem = s.mem ∧ (t.core g).co = c.co ∧
            Event.chunkCommit g ∈ t.flight))) ∧
    (∀ p rest, (s.pkg p).sole = none → (s.pkg p).soleReqs = g :: rest → c.ext.sole = true → c.running ≠ none →
      exec (.soleGrant p) s = .next (s.setPkg p { s.pkg p with sole := some g, soleReqs := rest })) ∧
    (∀ k, c.running = some k → c.co.cont = 0 → c.co.quantum ≠ 0 → c.co.quantum.toNat ≤ c.ext.chunks →
      (c.contended = false → ∃ t, exec (.quantumExpiry g) s = .next t ∧ (t.core g).ext.chunks = 0 ∧ (t.core g).co = c.co ∧ t.mem = s.mem) ∧
      ∀ u : State, c.contended = true → c.vq = [] → c.ext.vpend = [] → ({ s with focus := g } : State).commit g = some u →
        ∃ t, exec (.quantumExpiry g) s = .next t ∧ (t.core g).running = none ∧ ((t.core g).slot k).st = .refilling ∧
          ((t.core g).slot k).full = true ∧ ((t.core g).slot k).co = (u.core g).co ∧ ((t.core g).slot k).wait = .nothing) ∧
    (∀ k, c.running = none → (s.pkg (pkgOf g)).live = true → c.nextSlot = some k → (c.slots.map (·.1)).Nodup →
      (c.slot k).st = .signalled ∧
      (∀ x ∈ c.slots, x.2.st = .signalled → x.2.co.cls.toNat < (c.slot k).co.cls.toNat ∨
        (x.2.co.cls = (c.slot k).co.cls ∧ (c.slot k).turn ≤ x.2.turn)) ∧
      ((c.slot k).wait = .nothing → (c.slot k).cacheError = false → ((c.slot k).inMem = true → s.contextError g k = none) →
        ∃ t, exec (.coreResume g) s = .next t ∧ t.focus = g ∧ t.cur.running = some k ∧ (t.cur.slot k).st = .running ∧
          t.co = (if (c.slot k).inMem then readContext s.mem (c.saveArea k) (c.slot k).co else (c.slot k).co) ∧
          t.ext = (c.slot k).ext ∧ t.cur.chunk = Chunk.fresh t.co ∧ t.mem = s.mem)) ∧
    (∀ l k r, c.refills = l ++ k :: r → (c.slot k).st = .refilling → c.spilling = [] →
      (∀ j ∈ l, (c.slot j).st = .refilling ∧ (c.slot j).full = false ∧ (c.slot j).size ≤ 196608 ∧
        196608 < c.cacheUsed + ((c.slot j).size + 63) / 64 * 64 ∧ ∀ x ∈ c.slots, x.2.st = .suspended → x.2.inMem = true) →
      ((c.slot k).full = true ∨ 196608 < (c.slot k).size → ∃ t, exec (.contextRefillDone g) s = .next t ∧
        (t.core g).refills = c.refills.filter (· ≠ k) ∧ ((t.core g).slot k).st = .signalled ∧ ((t.core g).slot k).inMem = true ∧
        t.mem = s.mem) ∧
      ((c.slot k).full = false → (c.slot k).size ≤ 196608 → (c.slot k).cacheError = false → s.contextError g k = none →
        c.cacheUsed + ((c.slot k).size + 63) / 64 * 64 ≤ 196608 → ∃ t, exec (.contextRefillDone g) s = .next t ∧
          (t.core g).refills = c.refills.filter (· ≠ k) ∧ ((t.core g).slot k).st = .signalled ∧ ((t.core g).slot k).inMem = false ∧
          ((t.core g).slot k).co = readContext s.mem (c.saveArea k) (c.slot k).co ∧ t.mem = s.mem)) ∧
    (∃ t, exec (.spillComplete g) s = .next t ∧ (t.core g).spilling = c.spilling.drop 1 ∧ (t.core g).slots = c.slots ∧ t.mem = s.mem) ∧
    (c.isQuiet = true → c.quiet = false → c.wdog ≠ 0 →
      (∀ n, c.quietAt = some n → c.wdog.toNat ≤ s.elapsed - n → ∃ es : List Word, es.length = 2 * min 8 c.waiters.length ∧
        exec (.quiescenceWatchdog g) s = .next ((s.setCore g { c with quiet := true }).record (pkgOf g)
          ((c.waiters.headD (0, Slot.reset)).2).co.tenant
          ([1, (mkCid g 0).setWidth 64, BitVec.ofNat 64 c.waiters.length, BitVec.ofNat 64 (s.elapsed - max c.cycle0 (s.pkg (pkgOf g)).booted),
            0, 0, 0, 0] ++ es))) ∧
      (∀ n, c.quietAt = some n → s.elapsed - n < c.wdog.toNat → exec (.quiescenceWatchdog g) s = .next s)) ∧
    (c.quiet = true ∨ c.wdog = 0 → exec (.quiescenceWatchdog g) s = .next s) ∧
    (∀ (va : Word) (line : Nat), line = va.toNat / 128 →
      (∀ l, s.prefetchable g va = some l → (∀ x ∈ c.prefetch, x.1 ≠ l) →
        exec (.dataPrefetch g va 0) s = .next (s.setCore g ({ c with prefetch := c.prefetch ++ [(l, false)] }.countRun 7 1))) ∧
      (exec (.dataPrefetch g va 1) s =
        .next (s.setCore g { c with prefetch := c.prefetch.map fun x => if x.1 = line then (line, true) else x })) ∧
      ((line, true) ∈ c.prefetch → ∀ o ∈ [(2 : BitVec 2), 3], exec (.dataPrefetch g va o) s =
        .next (s.setCore g ({ c with prefetch := c.prefetch.erase (line, true) }.countRun 10 1)))) ∧
    (∀ r, s.agenda = .upset (.speculative g false) :: r → c.running ≠ none → c.chunk.reads ≠ [] → ∃ t, step s = .next t ∧
      (t.core g).co = c.chunk.start ∧ (t.core g).chunk = Chunk.fresh c.chunk.start ∧ t.mem = s.mem) ∧
    (∀ r k, s.agenda = .upset (.speculative g true) :: r → c.running ≠ none → c.waiting = some k → k.wrote ≠ [] → ∃ t, step s = .next t ∧
      (t.core g).co = k.start ∧ (t.core g).chunk = Chunk.fresh k.start ∧ (t.core g).waiting = none ∧ t.mem = s.mem) ∧
    (∀ r, s.agenda = .upset (.speculative g false) :: r → c.chunk.reads = [] → c.chunk.wrote = [] → ∃ t, step s = .next t ∧
      (t.core g).co = c.co ∧ (t.core g).chunk = c.chunk ∧ t.mem = s.mem)

/-- R300, R304 to R307: a walk starts at the root of a live ASID, in one of 256 slots or in the order of arrival, and not for an address at
or above 0xFC00_0000_0000_0000; a further request of its page joins it; it reads one level's entry at a time, and installs a leaf in
the TLBs of every core that it serves and of their clusters, and of the cluster of an engine, or nothing where it fails; then the request
that has waited longest starts. An invalidation command is queued with its record, and its completion removes from every core and every
cluster of the package the translations that it reaches, with the lines that are held through them, squashes the chunks that used them,
drops the walks, and signals its token.
The model's own reading or choice in it: logs 8 and 30. -/
def Obligations.WalksAndInvalidations : Prop :=
  (∀ (g : CoreId) (asid : BitVec 14) (va : Word) (s : State) (y : Pkg), y = s.pkg (pkgOf g) →
    (0xFC00000000000000 ≤ va.toNat → exec (.pageWalk g asid va) s = .next s) ∧
    (va.toNat < 0xFC00000000000000 → y.walks.find? (·.serves asid va) = none →
      (256 ≤ y.walks.length ∨ y.walkq ≠ [] →
        (∀ x ∈ y.walkq, ¬(x.1 = .core g ∧ x.2.1 = asid ∧ x.2.2.toNat / 65536 = va.toNat / 65536)) →
        exec (.pageWalk g asid va) s = .next (s.setPkg (pkgOf g) { y with walkq := y.walkq ++ [(.core g, asid, va)] })) ∧
      (y.walks.length < 256 → y.walkq = [] →
        (∀ root, s.rootOf (pkgOf g) asid (s.cluster (clusterOf g)).tenant = .ok root → ∃ t, exec (.pageWalk g asid va) s = .next t ∧
          (t.pkg (pkgOf g)).walks = y.walks ++ [⟨[.core g], asid, va, 0, root⟩] ∧ Event.pageWalk g asid va ∈ t.flight) ∧
        ∀ e, s.rootOf (pkgOf g) asid (s.cluster (clusterOf g)).tenant = .error e → ∃ t, exec (.pageWalk g asid va) s = .next t ∧
          (t.pkg (pkgOf g)).missed = y.missed ++ [(.core g, (asid, va.toNat / 65536), e)] ∧ (t.pkg (pkgOf g)).walks = y.walks ∧
          t.cores = s.cores ∧ t.clusters = s.clusters)) ∧
    ∀ w, va.toNat < 0xFC00000000000000 → y.walks.find? (·.serves asid va) = some w →
      ((∀ a ∈ w.askers, a.lead ≠ g) → ∃ t, exec (.pageWalk g asid va) s = .next t ∧
        (t.pkg (pkgOf g)).walks = y.walks.map (fun x =>
          if x.serves asid va = true ∧ Asker.core g ∉ x.askers then { x with askers := x.askers ++ [.core g] } else x)) ∧
      ((∃ a ∈ w.askers, a.lead = g) →
        (∀ e, s.walkRead (pkgOf g) asid va w.level w.table_ = .leaf e → ∃ t, exec (.pageWalk g asid va) s = .next t ∧ t.mem = s.mem ∧
          (∀ h, Asker.core h ∈ w.askers ∨ Asker.ahead h ∈ w.askers → e ∈ (t.core h).tlb ∧ e ∈ (t.cluster (clusterOf h)).tlb) ∧
          (∀ cl, Asker.engine cl ∈ w.askers → e ∈ (t.cluster cl).tlb) ∧
          (y.walkq = [] → (t.pkg (pkgOf g)).walks = y.walks.filter (fun x => !x.serves w.asid w.va)) ∧
          ∀ a i v rest root, y.walkq = (a, i, v) :: rest → (∀ x ∈ y.walks, x.serves i v = true → x.serves w.asid w.va = true) →
            s.rootOf (pkgOf g) i (s.cluster (clusterOf a.lead)).tenant = .ok root → y.walks.length ≤ 256 →
            Event.pageWalk a.lead i v ∈ t.flight ∧
            ∃ x ∈ (t.pkg (pkgOf g)).walks, a ∈ x.askers ∧ x.asid = i ∧ x.va = v ∧ x.level = 0 ∧ x.table_ = root) ∧
        (∀ tab, w.level < 3 → s.walkRead (pkgOf g) asid va w.level w.table_ = .next tab → ∃ t, exec (.pageWalk g asid va) s = .next t ∧
          (t.pkg (pkgOf g)).walks = y.walks.map (fun x => if x.serves asid va then { x with level := w.level + 1, table_ := tab } else x) ∧
          Event.pageWalk g asid va ∈ t.flight) ∧
        ∀ m, s.walkRead (pkgOf g) asid va w.level w.table_ = .miss m → y.walkq = [] → ∃ t, exec (.pageWalk g asid va) s = .next t ∧
          (t.pkg (pkgOf g)).walks = y.walks.filter (fun x => !x.serves w.asid w.va) ∧ t.clusters = s.clusters ∧
          (∀ h, (t.core h).tlb = (s.core h).tlb) ∧
          ∀ a ∈ w.askers, (a, (w.asid, w.va.toNat / 65536), m) ∈ (t.pkg (pkgOf g)).missed)) ∧
  ∀ (p : Nat) (s : State),
    (∀ (pa : Pa) (t : BitVec 6), (s.pkg p).tlbinv.length < 64 → pa % 8 = 0 →
      (s.inWindow p t.toNat pa 32 = true → ∃ u, exec (.tlbinvTenant p t pa) s = .next u ∧ Event.tlbinvComplete p ∈ u.flight ∧
        (u.pkg p).tlbinv = (s.pkg p).tlbinv ++ [(some t, memWord s.mem pa, memWord s.mem (pa + 8), memWord s.mem (pa + 16))]) ∧
      ∃ u, exec (.tlbinvGrexa p pa) s = .next u ∧ Event.tlbinvComplete p ∈ u.flight ∧
        (u.pkg p).tlbinv = (s.pkg p).tlbinv ++ [(none, memWord s.mem pa, memWord s.mem (pa + 8), memWord s.mem (pa + 16))]) ∧
    ∀ t va w tok rest, (s.pkg p).tlbinv = (t, va, w, tok) :: rest →
      (∀ n, n / 128 = p → (s.cluster n).copies = [] ∧ (s.cluster n).unit.granted = none ∧ (s.cluster n).unit.running = none) →
      (∀ g, pkgOf g = p → (s.core g).jobs = []) →
      ∃ u, exec (.tlbinvComplete p) s = .next u ∧ (u.pkg p).tlbinv = rest ∧ u.mem = s.mem ∧
        (∀ g, pkgOf g = p → (u.core g).tlb = (s.core g).tlb.filter fun e => !Claims.invalidates s p t va w e) ∧
        (∀ g, pkgOf g ≠ p → (u.core g).tlb = (s.core g).tlb) ∧
        (∀ n, n / 128 = p → (u.cluster n).tlb = (s.cluster n).tlb.filter fun e => !Claims.invalidates s p t va w e) ∧
        (∀ n, n / 128 ≠ p → (u.cluster n).tlb = (s.cluster n).tlb) ∧
        (∀ g, pkgOf g = p → (u.core g).ahead = (s.core g).ahead.filter (fun l => !Claims.reachesAsid s p t w l.asid) ∧
          (Claims.reachesAsid s p t w (u.core g).co.asid = true → (u.core g).line = none)) ∧
        ((s.pkg p).walkq = [] → (u.pkg p).walks = (s.pkg p).walks.filter (fun x => !Claims.reachesAsid s p t w x.asid)) ∧
        (∀ g, pkgOf g = p → (s.core g).running ≠ none → (s.core g).waiting = none →
          (∃ x ∈ (s.core g).chunk.pages, Claims.reachesAsid s p t w x.1 = true) →
          (u.core g).co = (s.core g).chunk.start ∧ (u.core g).chunk = Chunk.fresh (s.core g).chunk.start) ∧
        (tok ≠ 0 → t = none → Event.tokenSignalAtHome (.unit p 0 0) tok.toNat (-1) ∈ u.flight)

/-- R97 to R101, R107, R195, R199, R213, R219, R220, R234, R261 to R264, R328, R339, R340: requests at their homes. Each is performed as one
step where the home serves it, and answers the coroutine that sent it; a completion reaches only the occupant that its tag names; what
a package does not admit is lost or answered with an error; a request that the fabric loses answers its coroutine with the error of
its kind. A release waits for the writes before it, and for no later one.
The model's own reading or choice in it: logs 23 and 27. -/
def Obligations.HomesServeRequests : Prop :=
  ∀ (who : Who) (r : Reg) (pa : Pa) (tenant : BitVec 6) (q : Req) (s : State),
    (∀ val bad, Claims.Awaits s who r → ∃ t, exec (.pendingRegisterCompletion who r val bad) s = .next t ∧ Claims.Completed t who r val) ∧
    (∀ val bad, ((s.core who.core).slot who.slot).gen ≠ who.gen → exec (.pendingRegisterCompletion who r val bad) s = .next s) ∧
    (∀ sg n ea, Claims.Served s who tenant pa n → s.mmioRead pa = none → 1 ≤ n → n ≤ 8 → Claims.Awaits s who r →
      ∃ t, exec (.remoteLoadAtHome who r [(pa, n, [])] sg ea tenant) s = .next t ∧
        Claims.Completed t who r (Claims.extended n sg (leNat (memBytes s.mem pa n)))) ∧
    (∀ sg n ea, (s.pkg (paPkg pa)).on = true → s.readBusy pa n = false → s.admits (pkgOf who.core) tenant pa n = false →
      Claims.Awaits s who r → exec (.remoteLoadAtHome who r [(pa, n, [])] sg ea tenant) s = .next (s.complete who r 0 (some ea)) ∧
        Claims.Completed (s.complete who r 0 (some ea)) who r 0) ∧
    (∀ n val, Claims.Served s who q.tenant pa n → Claims.Unwatched s pa n → s.mmioRead pa = none → 1 ≤ n →
      ∃ t, exec (.remoteWriteAtHome who pa n val q) s = .next t ∧ Claims.Holds s t pa n val ∧
        Event.postedWriteAcknowledged who (paPkg pa) ⟨q.seq, true⟩ ∈ t.flight) ∧
    (∀ n val, (s.pkg (paPkg pa)).on = true → 1 ≤ n → s.admits (pkgOf who.core) q.tenant pa n = false →
      exec (.remoteWriteAtHome who pa n val q) s = .next (s.post (.postedWriteAcknowledged who (paPkg pa) ⟨q.seq, false⟩))) ∧
    (∀ (f : BitVec 6) dbl op cmp ea n, n = (if dbl then 8 else 4) → f.toNat ≤ 9 → Claims.Served s who q.tenant pa n →
      Claims.Unwatched s pa n → ∃ t, exec (.amoAtHome who r pa f dbl op cmp ea q) s = .next t ∧
        Claims.Holds s t pa n (Claims.amoValue f.toNat (8 * n) (BitVec.ofNat _ (leNat (memBytes s.mem pa n))) (op.setWidth _) (cmp.setWidth _)).toNat ∧
        Event.pendingRegisterCompletion who r (BitVec.ofNat 64 (leNat (memBytes s.mem pa n) + if dbl then 0 else 2 ^ 63)) none ∈ t.flight) ∧
    (∀ id (f : BitVec 6) (t : BitVec 4) val (rm : BitVec 3) seed sbase idx n, n = tyWidth t.toNat / 8 → t ≠ 8 → Claims.Served s who q.tenant pa n →
      Claims.Unwatched s pa n → ∃ u, exec (.vamoUpdateAtHome who id pa f t val rm seed sbase idx q) s = .next u ∧
        Claims.Holds s u pa n ((vamoOp f.toNat).apply t.toNat ⟨rm.toNat, (sow64 (sowCtr sbase idx 255) seed).toNat⟩
          (leNat (memBytes s.mem pa n)) val).1 ∧
        Event.postedWriteAcknowledged who (paPkg pa) ⟨q.seq, true⟩ ∈ u.flight) ∧
    (∀ p n ok e, s.extOf who = some e → s.copyOf n = none → (∀ x ∈ s.flight, x.fences p n = false) →
      ∃ t, exec (.postedWriteAcknowledged who p ⟨n, ok⟩) s = .next t ∧ t.mem = s.mem ∧
        t.extOf who = some (if n ∈ e.unacked then { e with
          unacked := e.unacked.filter (· ≠ n), lost := if ok = true ∨ p ∈ e.lost then e.lost else e.lost ++ [p] } else e)) ∧
    (∀ p b l e, (s.pkg p).on = true → s.bankBusy who p b = false → s.extOf who = some e →
      (e.fencets = [] → e.fence = some l → ∃ t, exec (.fenceProbeEcho who r p b) s = .next t ∧
        t.extOf who = some { e with fence := some (l.erase (p, b)) }) ∧
      (e.fencets = [(r, [(p, b)], none)] → e.lost = [] → Claims.Awaits s who r → ∃ t, exec (.fenceProbeEcho who r p b) s = .next t ∧
        Claims.Completed t who r 0x8000000000000000 ∧ t.extOf who = some { e with fencets := [], touched := [], wide := false })) ∧
    (∀ n sg len bs ea, s.flight[n]? = some (.remoteLoadAtHome who r [(pa, len, bs)] sg ea tenant) → pkgOf who.core ≠ paPkg pa →
      exec (.fabricFailureTimeout n) s = .next (({ s with flight := s.flight.eraseIdx n } : State).complete who r 0 (some ea))) ∧
    (∀ n len val, s.flight[n]? = some (.remoteWriteAtHome who pa len val q) → pkgOf who.core ≠ paPkg pa →
      s.copyOf q.seq = none → exec (.fabricFailureTimeout n) s =
        .next (({ s with flight := s.flight.eraseIdx n } : State).post (.postedWriteAcknowledged who (paPkg pa) ⟨q.seq, false⟩))) ∧
    (∀ ea w, w = memWord s.mem pa → Claims.Served s who tenant pa 8 →
      (w.getLsbD 63 = true → exec (.futureLoadAtHome who r pa ⟨ea, tenant⟩) s =
        .next ((s.noteRuns [(pa, 8)]).complete who r (w &&& 0x7FFFFFFFFFFFFFFF) none)) ∧
      (w.getLsbD 63 = false → s.deferredAt pa < 256 → ∃ t, exec (.futureLoadAtHome who r pa ⟨ea, tenant⟩) s = .next t ∧
        (t.pkg (paPkg pa)).deferred = (s.pkg (paPkg pa)).deferred ++ [⟨pa, who, r⟩] ∧ t.mem = s.mem) ∧
      (w.getLsbD 63 = false → 256 ≤ s.deferredAt pa →
        exec (.futureLoadAtHome who r pa ⟨ea, tenant⟩) s = .next ((s.noteRuns [(pa, 8)]).complete who r 0x7FFFFFFFFFFFFFFF none))) ∧
    (∀ l, s.released l = true ↔ ∀ n ∈ l, ∀ e ∈ s.flight, e.isPosted n = false) ∧
    (∀ val, s.released q.after = true →
      (Claims.Served s who q.tenant pa 8 → Claims.Unwatched s pa 8 → ∃ t, exec (.futureStoreAtHome who pa ⟨val, q⟩) s = .next t ∧
        Claims.Holds s t pa 8 (val ||| 0x8000000000000000).toNat ∧ (∀ x ∈ (t.pkg (paPkg pa)).deferred, x.pa ≠ pa) ∧
        ∀ x ∈ (s.pkg (paPkg pa)).deferred, x.pa = pa →
          Event.pendingRegisterCompletion x.who x.reg (val &&& 0x7FFFFFFFFFFFFFFF) none ∈ t.flight) ∧
      ∀ e, (s.pkg (paPkg pa)).on = true → s.admits (pkgOf who.core) q.tenant pa 8 = false → s.extOf who = some e →
        ∃ t x, exec (.futureStoreAtHome who pa ⟨val, q⟩) s = .next t ∧ t.mem = s.mem ∧ t.extOf who = some x ∧ paPkg pa ∈ x.lost) ∧
    (∀ dst m g, g = cidCore dst → (s.pkg (pkgOf g)).on = true →
      (s.mailboxOpen (pkgOf who.core) tenant dst = false →
        exec (.mailboxArrival dst m who r tenant) s = .next (s.complete who r 0x8200000000000001 none)) ∧
      (s.mailboxOpen (pkgOf who.core) tenant dst = true →
        (64 ≤ (s.core g).mailbox.length ∨ (s.cluster (clusterOf g)).leaving = true →
          exec (.mailboxArrival dst m who r tenant) s = .next (s.complete who r 0x8200000000000000 none)) ∧
        ((s.core g).mailbox.length < 64 → (s.cluster (clusterOf g)).leaving = false →
          ∃ t, exec (.mailboxArrival dst m who r tenant) s = .next t ∧ (t.core g).mailbox = (s.core g).mailbox ++ [m]))) ∧
    ∀ x : SpawnReq, (x.kind = 1 → (s.pkg (pkgOf (cidCore x.cid))).on = true) → s.released x.after = true →
      (∀ y ∈ x.probes, (s.pkg y.1).on = true) →
      (x.failed = true ∨ s.spawnPlace x = none → exec (.spawnRequest x) s = .next (s.complete x.parent x.reg (-1) none)) ∧
      ∀ g k, x.failed = false → s.spawnPlace x = some (g, k) → ∃ t, exec (.spawnRequest x) s = .next t ∧ ((t.core g).slot k).st = .signalled ∧
        ∀ co, co = ((t.core g).slot k).co → co.pc = x.pc ∧ co.rd 1 = x.s1 ∧ co.rd 2 = x.s2 ∧
          co.rd 3 = (mkCid x.parent.core x.parent.slot).setWidth 64 ∧ co.vtype = x.vtype ∧ co.cls = x.cls ∧ co.ceil = x.ceil ∧
          co.stage = x.stage ∧ co.asid = x.asid ∧ co.mode = .user ∧ co.cid = mkCid g k

/-! ### Launching, slot commands, registers, tenants and the host (R203, R299, R311 to R335, R378) -/

namespace Sys2Proof.Claims

/-- A token operation of a register of a tenant may be made at the word: it lies in the tenant's windows and in a package that
has power and admits it (R311, R340). -/
def TokenOpen (s : State) (p : Nat) (t : BitVec 6) (pa : Pa) : Prop :=
  s.inWindow p t.toNat pa 8 = true ∧ s.admits p t pa 8 = true ∧ (s.pkg (paPkg pa)).on = true

/-- The core is as its reset leaves it: nothing runs, every slot is free, its cells are zero; its queued jobs are the cluster's (R181, R378). -/
def CoreIsReset (t : State) (g : CoreId) : Prop :=
  (t.core g).running = none ∧ (∀ k, ((t.core g).slot k).st = .free) ∧ (t.core g).mailbox = [] ∧ (t.core g).tlb = [] ∧
  (t.core g).weights = none ∧ (∀ i, i < 2048 → memGet t.mem (cellPa g 0 + i) = 0)

/-- The cluster holds no coroutine and its units are idle (R328). -/
def ClusterEmpty (s : State) (cl : Nat) : Prop :=
  (s.cluster cl).unit.granted = none ∧ (s.cluster cl).unit.running = none ∧ (s.cluster cl).copies = [] ∧
  ∀ j, j < 8 → (s.core (cl * 8 + j)).running = none ∧ (s.core (cl * 8 + j)).jobs = [] ∧ (s.core (cl * 8 + j)).colls = [] ∧
    ∀ x ∈ (s.core (cl * 8 + j)).slots, x.2.st = .free

end Sys2Proof.Claims

/-- R314 to R323, R333, R380: the task distributor. Configuration writes set their fields; QDOOR raises the launch token and HSIGV
signals the tenant's token; a firing token has its entry read, or its queue disabled where it overflows; an entry is taken as head
or rejected with its reason; a head whose after-tokens are at zero becomes eligible; binding makes one instance after another.
The model's own reading or choice in it: logs 25 and 38, and log 59 for an entry whose bytes fail, which is read again. -/
def Obligations.LaunchQueuesWork : Prop :=
  ∀ (p : Nat) (t : BitVec 6) (q : BitVec 4) (s : State) (x : Queue), x = s.queue p t q →
    (∀ val : Word, (∃ u, exec (.launchQueueConfigWrite p t q 0 val) s = .next u ∧ u.queue p t q = { x with qbase := val &&& 0x03FFFFFFFFFFFFC0 }) ∧
      (∃ u, exec (.launchQueueConfigWrite p t q 0x10 val) s = .next u ∧ u.queue p t q = { x with qtok := val &&& 0x03FFFFFFFFFFFFF8 }) ∧
      ((val.extractLsb' 0 5).toNat ≤ 16 → ∃ u, exec (.launchQueueConfigWrite p t q 8 val) s = .next u ∧
        u.queue p t q = { x with ctl := val &&& 0x80003FFF0003001F } ∧
        (val.getLsbD 63 = true → Event.launchTokenFiring p t q ∈ u.flight)) ∧
      ∃ u, exec (.launchQueueConfigWrite p t q 0x18 val) s = .next u ∧
        (u.queue p t q).qhead = (if x.ctl.getLsbD 63 then x.qhead else val.extractLsb' 0 32) ∧ (u.queue p t q).ctl = x.ctl) ∧
    (∀ val : Word, ∃ u, exec (.faultQueueConfigWrite p t val) s = .next u ∧
      (u.tenant p t.toNat).fqvec = (val.extractLsb' 8 5).setWidth 64 ∧
      (u.tenant p t.toNat).fqlog2 = if (val.extractLsb' 0 5).toNat ≤ 16 then (val.extractLsb' 0 5).setWidth 64 else (s.tenant p t.toNat).fqlog2) ∧
    (∀ val : BitVec 32, (Claims.TokenOpen s p t x.qtok.toNat →
        exec (.qdoor p t q val) s = .next (s.tokenOp (.host p t) x.qtok.toNat fun w => Claims.raised w val.toInt)) ∧
      (s.inWindow p t.toNat x.qtok.toNat 8 = false → exec (.qdoor p t q val) s = .next s)) ∧
    (∀ (val : BitVec 32) h, h = (s.tenant p t.toNat).hsiga →
      (h ≠ 0 → Claims.TokenOpen s p t h.toNat → exec (.hsigv p t val) s = .next (s.tokenOp (.host p t) h.toNat fun w => Claims.signalled w val.toInt)) ∧
      (h = 0 ∨ s.inWindow p t.toNat h.toNat 8 = false → exec (.hsigv p t val) s = .next s)) ∧
    (x.ctl.getLsbD 63 = false → exec (.launchTokenFiring p t q) s = .next s) ∧
    (s.inWindow p t.toNat x.qtok.toNat 8 = false → exec (.launchTokenFiring p t q) s = .next s) ∧
    (∀ n : Int, n = ((memWord s.mem x.qtok.toNat).extractLsb' 0 32).toInt - x.qhead.toNat → x.ctl.getLsbD 63 = true →
      Claims.TokenOpen s p t x.qtok.toNat → s.failing x.qtok.toNat = false →
      ((2 ^ (x.ctl.extractLsb' 0 5).toNat : Int) < n → ∃ u, exec (.launchTokenFiring p t q) s = .next u ∧
        (u.queue p t q).ovf = true ∧ (u.queue p t q).ctl = x.ctl &&& 0x7FFFFFFFFFFFFFFF) ∧
      (n ≤ (2 ^ (x.ctl.extractLsb' 0 5).toNat : Int) → 0 < n → x.head = none →
        exec (.launchTokenFiring p t q) s = .next (s.post (.launchEntryRead p t q))) ∧
      (n ≤ 0 → exec (.launchTokenFiring p t q) s = .next s)) ∧
    (∀ n : Int, n = ((memWord s.mem x.qtok.toNat).extractLsb' 0 32).toInt - x.qhead.toNat → x.ctl.getLsbD 63 = true → x.head = none → 0 < n →
      ∀ pa e, pa = x.qbase.toNat + 64 * (x.qhead.toNat % 2 ^ (x.ctl.extractLsb' 0 5).toNat) → e = memBytes s.mem pa 64 →
      (s.inWindow p t.toNat pa 64 = false → exec (.launchEntryRead p t q) s = .next s) ∧
      (s.inWindow p t.toNat pa 64 = true → s.admits p t pa 64 = true → (s.pkg (paPkg pa)).on = true → s.readBusy pa 64 = false →
        ((∀ i, i < 64 → s.failing (pa + i) = false) →
          (∀ y ∈ entryTokens e, ∀ m a, s.translate (x.space p t) y.1 (BitVec.ofNat 64 y.2) 8 = .error (m, a) → m.bad = none) →
          (s.entryReason p t x e = none → ∃ u, exec (.launchEntryRead p t q) s = .next u ∧ (u.queue p t q).head = some e ∧
            (u.queue p t q).eligible = none ∧ (u.queue p t q).qhead = x.qhead ∧ s.entryClusters p t e = some (u.queue p t q).clusters ∧
            Event.afterTokenEligible p t q ∈ u.flight) ∧
          ∀ n, s.entryReason p t x e = some n → ∃ u, exec (.launchEntryRead p t q) s = .next u ∧ (u.queue p t q).head = none ∧
            (u.queue p t q).qhead = x.qhead + 1 ∧ Event.launchTokenFiring p t q ∈ u.flight) ∧
        ((∃ i, i < 64 ∧ s.failing (pa + i) = true) → ∃ u, exec (.launchEntryRead p t q) s = .next u ∧ (u.queue p t q).head = none ∧
          (u.queue p t q).qhead = x.qhead ∧ Event.distributorRegistrationRetry p t q ∈ u.flight))) ∧
    (x.head ≠ none → x.eligible = none →
      (∀ a ∈ x.after, s.failing a = false ∧ (s.pkg (paPkg a)).on = true ∧ s.admits p t a 8 = true) →
      ((∀ a ∈ x.after, ((memWord s.mem a).extractLsb' 0 32).toInt ≤ 0) → ∃ u, exec (.afterTokenEligible p t q) s = .next u ∧
        u.queue p t q = { x with after := [], eligible := some s.elapsed } ∧ Event.instanceBind p t ∈ u.flight) ∧
      ((∃ a ∈ x.after, 0 < ((memWord s.mem a).extractLsb' 0 32).toInt) → ∃ u, exec (.afterTokenEligible p t q) s = .next u ∧
        u.queue p t q = { x with after := x.after.filter fun a => 0 < ((memWord s.mem a).extractLsb' 0 32).toInt })) ∧
    (∀ pa w, pa ∈ x.after → w = memWord s.mem pa → s.homeOf pa ≠ .nowhere → (s.pkg (paPkg pa)).on = true → s.failing pa = false →
      s.admits p t pa 8 = true → w.getLsbD 51 = false → w.getLsbD 48 = false → (w.extractLsb' 0 32).toInt = 1 →
      ∃ u, exec (.tokenSignalAtHome (.unit p t 0) pa (-1)) s = .next u ∧ pa ∉ (u.queue p t q).after ∧
        Event.afterTokenEligible p t q ∈ u.flight) ∧
    (s.failing x.qtok.toNat = false → (∀ a ∈ x.after, s.failing a = false) →
      (x.head ≠ none ∨ ∀ i, i < 64 → s.failing (x.qbase.toNat + 64 * (x.qhead.toNat % 2 ^ (x.ctl.extractLsb' 0 5).toNat) + i) = false) →
      exec (.distributorRegistrationRetry p t q) s = .next (s.posts [.launchTokenFiring p t q, .afterTokenEligible p t q])) ∧
    (∀ n e, (s.tenant p t.toNat).bind = none → (s.tenant p t.toNat).select = some n → n = q.toNat → x.head = some e →
      ∃ u, exec (.instanceBind p t) s = .next u ∧ (u.tenant p t.toNat).bind = some ⟨n, e, 0, x.clusters⟩ ∧ u.queue p t q = { x with sel := 1 } ∧
        Event.instanceBind p t ∈ u.flight) ∧
    ∀ e i l g k, (s.tenant p t.toNat).bind = some ⟨q.toNat, e, i, l⟩ →
      s.firstRoom (s.distributorScan p t.toNat l) = some (g, k) → ∃ u, exec (.instanceBind p t) s = .next u ∧
        ((u.core g).slot k).st = .signalled ∧ (∀ co, co = ((u.core g).slot k).co → co.pc = BitVec.ofNat 64 (leNat (e.take 8)) ∧
          co.rd 1 = BitVec.ofNat 64 i ∧ co.rd 2 = BitVec.ofNat 64 (leNat ((e.drop 8).take 8)) ∧
          co.rd 3 = BitVec.ofNat 64 (leNat ((e.drop 16).take 4)) ∧ co.tenant = t ∧ co.mode = .user ∧
          co.done = BitVec.ofNat 64 (leNat ((e.drop 48).take 8))) ∧
        (if i + 1 < leNat ((e.drop 16).take 4) then (u.tenant p t.toNat).bind = some ⟨q.toNat, e, i + 1, l⟩ ∧ u.queue p t q = x
          else (u.tenant p t.toNat).bind = none ∧ (u.queue p t q).head = none ∧ (u.queue p t q).qhead = x.qhead + 1)

/-- R203, R299, R326, R327: commands on slots and register writes. An evicted slot keeps its context in its save area; a restored
one is waited for or refilled with the PC that stands there; a released one is free; CTXBASE is written only
while every slot is free; L2CFG only without an outstanding collective; every other register takes its value at once; a tenant's function
reaches the blocks of no other tenant; QDOOR and HSIGV act as they are written.
The model's own reading or choice in it: log 38, and log 58 for which function of the host reaches which register. -/
def Obligations.SlotCommandsAndRegisters : Prop :=
  (∀ (g : CoreId) (k : BitVec 8) (s : State) (x : Slot), x = (s.core g).slot k.toNat →
    (∀ b, (s.core g).running ≠ some k.toNat → (x.st, b) ∈ [(SlotState.suspended, false), (.spilled, false), (.signalled, true), (.refilling, true)] →
      ∃ t, exec (.slotEvict g k) s = .next t ∧ ((t.core g).slot k.toNat).st = .evicted ∧ ((t.core g).slot k.toNat).signalled = b ∧
        ((t.core g).slot k.toNat).inMem = true ∧ ((t.core g).slot k.toNat).co = x.co ∧ ((t.core g).slot k.toNat).wait = x.wait ∧
        (t.core g).busy = false) ∧
    (∀ n, (s.core g).running = some k.toNat → (s.core g).co.cont = n + 1 → ∃ t, exec (.slotEvict g k) s = .next t ∧
      (t.core g).evicting = true ∧ (t.core g).co = (s.core g).co ∧ (t.core g).running = some k.toNat ∧ Event.slotEvict g k ∈ t.flight) ∧
    (∀ u : State, (s.core g).running = some k.toNat → (s.core g).vq = [] → (s.core g).ext.vpend = [] → (s.core g).co.lpend = false →
      (s.core g).ext.ended = false → (s.core g).co.cont = 0 → x.wait = .nothing → (s.setCore g { s.core g with evicting := false }).commit g = some u → ∃ t, exec (.slotEvict g k) s = .next t ∧ (t.core g).running = none ∧
        ((t.core g).slot k.toNat).st = .evicted ∧ ((t.core g).slot k.toNat).full = true ∧ ((t.core g).slot k.toNat).co = (u.core g).co ∧
        ((t.core g).slot k.toNat).signalled = true ∧ (t.core g).busy = false) ∧
    (x.st = .evicted ∨ x.st = .halted →
      (s.failingIn (pkgOf g) [((s.core g).saveArea k.toNat, 0x40), ((s.core g).saveArea k.toNat + 0x140, 0xD0)] = none →
        ∃ t, exec (.slotRestore g k) s = .next t ∧ (t.core g).busy = false ∧
          (((t.core g).slot k.toNat).st = .spilled ∨ ((t.core g).slot k.toNat).st = .refilling) ∧
          ((memWord s.mem ((s.core g).saveArea k.toNat + 0x178)).getLsbD 61 = true → ((t.core g).slot k.toNat).st = .refilling) ∧
          ((t.core g).slot k.toNat).co.pc = memWord s.mem ((s.core g).saveArea k.toNat)) ∧
      ∃ t, exec (.slotRelease g k) s = .next t ∧ (t.core g).busy = false ∧ ((t.core g).slot k.toNat).st = .free ∧
        ((t.core g).slot k.toNat).gen = x.gen + 1) ∧
    ∀ val, ((∀ y ∈ (s.core g).slots, y.2.st = .free) → ∃ t, exec (.ctxbaseWrite g val) s = .next t ∧ t.mem = s.mem ∧
        t.cores = (s.setCore g { s.core g with ctxbase := (val &&& 0x03FFFFFFFFFFF000).extractLsb' 0 58 }).cores) ∧
      ((∃ y ∈ (s.core g).slots, y.2.st ≠ .free) → exec (.ctxbaseWrite g val) s = .next s)) ∧
  (∀ (cl : Nat) (val : Word) (s : State),
    ((∀ j, j < 8 → (s.core (cl * 8 + j)).colls = []) →
      exec (.l2cfgWrite cl val) s = .next (s.setCluster cl { s.cluster cl with l2cfg := val &&& 0x17 })) ∧
    ∀ j, j < 8 → (s.core (cl * 8 + j)).colls ≠ [] → ∃ t, exec (.l2cfgWrite cl val) s = .next t ∧ t.clusters = s.clusters ∧
      Event.l2cfgWrite cl val ∈ t.flight) ∧
  ∀ (pa : Pa) (val : Word) (s : State) (vf : Option (BitVec 6)),
    (s.hostReaches vf pa = true → s.mmioHeld 0 pa = false →
      ((∀ t q, s.regAt pa ≠ .queue t q 0x20) → (∀ t, s.regAt pa ≠ .host t 0x88) →
        exec (.mmioRegisterWrite ⟨vf, pa⟩ val) s = .next (s.mmioWrite pa val)) ∧
      (∀ t q, s.regAt pa = .queue t q 0x20 → exec (.mmioRegisterWrite ⟨vf, pa⟩ val) s =
        exec (.qdoor (paPkg pa) (BitVec.ofNat 6 t) (BitVec.ofNat 4 q) (val.setWidth 32)) s) ∧
      ∀ t, s.regAt pa = .host t 0x88 → exec (.mmioRegisterWrite ⟨vf, pa⟩ val) s =
        exec (.hsigv (paPkg pa) (BitVec.ofNat 6 t) (val.setWidth 32)) s) ∧
    (∀ cl, s.regAt pa = .cluster cl 0x100 → ∃ t, exec (.mmioRegisterWrite ⟨none, pa⟩ val) s = .next t ∧ (t.cluster cl).marbw = val) ∧
    (∀ cl, s.regAt pa = .cluster cl 0x110 → ∃ t, exec (.mmioRegisterWrite ⟨none, pa⟩ val) s = .next t ∧
      (t.cluster cl).swsave = val &&& 0x03FFFFFFFFFFF000) ∧
    (∀ (cl o : Nat) (t : BitVec 6), s.regAt pa = .cluster cl o → exec (.mmioRegisterWrite ⟨some t, pa⟩ val) s = .next s) ∧
    (∀ (n o : Nat) (t : BitVec 6), t.toNat ≠ n → s.regAt pa = .tenant n o ∨ s.regAt pa = .host n o →
      exec (.mmioRegisterWrite ⟨some t, pa⟩ val) s = .next s) ∧
    (∀ n, s.regAt pa = .park n 0 → ∃ t, exec (.mmioRegisterWrite ⟨none, pa⟩ val) s = .next t ∧
      (t.tenant (paPkg pa) n).ndwell = val &&& 0xFFFFFFFF) ∧
    ∀ n, (vf = none ∨ ∃ t : BitVec 6, vf = some t ∧ t.toNat = n) →
      (s.regAt pa = .tenant n 0x20 → ∃ t, exec (.mmioRegisterWrite ⟨vf, pa⟩ val) s = .next t ∧
        (t.tenant (paPkg pa) n).fqbase = val &&& 0x03FFFFFFFFFFFF00) ∧
      (s.regAt pa = .tenant n 0x30 → ∃ t, exec (.mmioRegisterWrite ⟨vf, pa⟩ val) s = .next t ∧
        (t.tenant (paPkg pa) n).fqhead = val.extractLsb' 0 32) ∧
      (s.regAt pa = .host n 0x80 → ∃ t, exec (.mmioRegisterWrite ⟨vf, pa⟩ val) s = .next t ∧
        (t.tenant (paPkg pa) n).hsiga = val &&& 0x03FFFFFFFFFFFFF8)

/-- R2, R181, R303, R311, R328, R331, R354, R371, R378: tenants and resets. A core's, a cluster's, a die's and a tenant's reset leave their
cores as their reset state, a core's its queued jobs apart; a configuration that keeps Grexa's rules takes effect, with its clusters joined,
its ASIDs' roots in the table, its new granary ranges zero and the others as they were; a switch of an empty cluster gives it to the new tenant with the registers
that Grexa loads; abandoning a switch that has waited too long gives the cluster back; BLOG2 takes values of 12 to 26.
The model's own reading or choice in it: logs 29, 37 and 38, log 17 for the deep runs of a configuration and log 16 for the place of
the ASID table that it sets. -/
def Obligations.TenantsAndResets : Prop :=
  (∀ (g : CoreId) (s : State), ∃ t, exec (.coreReset g) s = .next t ∧ Claims.CoreIsReset t g ∧ (t.core g).jobs = (s.core g).jobs ∧
    ∀ a, a < cellPa g 0 ∨ cellPa g 0 + 2048 ≤ a → memGet t.mem a = memGet s.mem a) ∧
  (∀ (cl : Nat) (s : State), ∃ t, exec (.clusterReset cl) s = .next t ∧ (t.cluster cl).acc = [] ∧ (t.cluster cl).badRows = [] ∧
    (t.cluster cl).copies = [] ∧ (t.cluster cl).l2cfg = 0x10 ∧ (t.cluster cl).marbw = 0x0101010101010101 ∧
    ∀ j, j < 8 → Claims.CoreIsReset t (cl * 8 + j) ∧ (t.core (cl * 8 + j)).jobs = []) ∧
  (∀ (d : Nat) (s : State), ∃ t, exec (.dieReset d) s = .next t ∧
    (∀ j, j < 256 → Claims.CoreIsReset t (d * 256 + j) ∧ (t.core (d * 256 + j)).jobs = []) ∧
    ∀ i, i < 2 ^ 30 → memGet t.mem (d / 4 * 2 ^ 46 + 0x200000000000 + d % 4 * 2 ^ 30 + i) = 0) ∧
  (∀ (p : Nat) (t : BitVec 6) (s : State), ∃ u, exec (.tenantReset p t) s = .next u ∧ (u.tenant p t.toNat).bind = none ∧
    (∀ q : BitVec 4, (u.queue p t q).ctl = (s.queue p t q).ctl &&& 0x7FFFFFFFFFFFFFFF ∧ (u.queue p t q).sel = 0) ∧
    ∀ i, i < 1024 → s.inSet p t.toNat (i / 8) = true → Claims.CoreIsReset u (p * 1024 + i)) ∧
  (∀ (p : Nat) (t : BitVec 6) (cfg old : TenantCfg) (s : State), old = (s.tenant p t.toNat).cfg →
    (s.configOk p t cfg = false → exec (.tenantConfiguration p t cfg) s = .next s) ∧
    (s.configOk p t cfg = true → (s.pkg p).retired = [] → ∃ u, exec (.tenantConfiguration p t cfg) s = .next u ∧
      (u.tenant p t.toNat).cfg = cfg ∧ Event.instanceBind p t ∈ u.flight ∧
      ((∀ w ∈ cfg.deep, w.1 < 16000000000000 ∧ w.1 + w.2 ≤ 16000000000000) → (u.pkg p).deepFree = (s.pkg p).deepFree ++ cfg.deep) ∧
      (∀ w ∈ (u.pkg p).deepFree, w ∈ (s.pkg p).deepFree ∨ w.1 + w.2 ≤ 16000000000000) ∧
      (∀ a, cfg.table = some a → (u.pkg p).asidbase = a) ∧
      (∀ a root, cfg.asids = [(a, root)] → old.asids = [] → Memory.wf s.mem = true → (∀ q, (s.pkg q).watches = []) →
        (∀ b, s.failing b = false) → u.rootOf p a t = .ok ((root.extractLsb' 15 43).toNat * 32768)) ∧
      (cfg.asids = [] → old.asids = [] → ∀ b, p * 2 ^ 46 + 0x200000000000 ≤ b → b < p * 2 ^ 46 + 0x200100000000 →
        ((∃ w ∈ cfg.windows, w.1 ≤ b ∧ b < w.1 + w.2) →
          (∀ x ∈ (s.pkg p).granary, x.2.2 = t.toNat → b < x.1 ∨ x.1 + x.2.1 ≤ b) → memGet u.mem b = 0) ∧
        ((∀ w ∈ cfg.zero, b < w.1 ∨ w.1 + w.2 ≤ b) →
          (∃ x ∈ (s.pkg p).granary, x.2.2 = t.toNat ∧ x.1 ≤ b ∧ b < x.1 + x.2.1) → memGet u.mem b = memGet s.mem b)) ∧
      ∀ k, k < 128 → s.inSet p t.toNat k = false → cfg.clset.getLsbD k = true → (u.cluster (p * 128 + k)).tenant = t)) ∧
  (∀ (cl : Nat) (t : BitVec 6) (ld : ClusterLoad) (s : State),
    (s.clusterFused cl = true → exec (.tenantSwitch cl t ld) s = .next s) ∧
    (s.clusterFused cl = false → Claims.ClusterEmpty s cl → (s.cluster cl).leaving = false →
      (s.cluster cl).swsave = 0 → (s.cluster cl).saved = [] → ∃ u, exec (.tenantSwitch cl t ld) s = .next u ∧
        (u.cluster cl).tenant = t ∧ (u.cluster cl).leaving = false ∧ (u.cluster cl).acc = [] ∧ (u.cluster cl).marbw = ld.marbw ∧
        (u.cluster cl).l2cfg = ld.l2cfg &&& 0x17 ∧ u.inSet (cl / 128) t.toNat (cl % 128) = true ∧
        ((s.cluster cl).tenant ≠ t → u.inSet (cl / 128) (s.cluster cl).tenant.toNat (cl % 128) = false) ∧
        ∀ j, j < 8 → (u.core (cl * 8 + j)).mailbox = [] ∧ (u.core (cl * 8 + j)).weights = none ∧ (u.core (cl * 8 + j)).handler = none ∧
          (∀ i, i < 2048 → memGet u.mem (cellPa (cl * 8 + j) 0 + i) = 0))) ∧
  (∀ (cl : Nat) (s : State), ((s.cluster cl).leaving = false → exec (.tenantSwitchAbandon cl) s = .next s) ∧
    ∀ n, (s.cluster cl).leaving = true → (s.cluster cl).since = some n →
      (s.elapsed - n ≤ 70000 → exec (.tenantSwitchAbandon cl) s = .next s) ∧
      (70000 < s.elapsed - n → (s.cluster cl).evicted = [] → ∃ u, exec (.tenantSwitchAbandon cl) s = .next u ∧
        (u.cluster cl).leaving = false ∧ u.inSet (cl / 128) (s.cluster cl).tenant.toNat (cl % 128) = true ∧
        Notice.switchAbandoned cl ∈ (u.pkg (cl / 128)).log ∧ u.mem = s.mem)) ∧
  ∀ (p : Nat) (t : BitVec 6) (val : Word) (s : State),
    ((val.extractLsb' 0 5).toNat < 12 ∨ 26 < (val.extractLsb' 0 5).toNat → exec (.blog2Write p t val) s = .next s) ∧
    (12 ≤ (val.extractLsb' 0 5).toNat → (val.extractLsb' 0 5).toNat ≤ 26 → ∃ u, exec (.blog2Write p t val) s = .next u ∧
      (u.tenant p t.toNat).blog2 = (val.extractLsb' 0 5).setWidth 64 ∧ u.mem = s.mem)

/-- R312, R332 to R335: the host's accesses. Through an aperture a write stores its bytes, a read answers with them, an AtomicOp
performs its read-modify-write and answers with the old value; outside every aperture a write is dropped, and a read and an AtomicOp are
answered with Unsupported Request. A read of a function's registers answers with the tenant's block (BAR0) or the host block (BAR1).
The model's own reading or choice in it: logs 25 and 58. -/
def Obligations.HostAccesses : Prop :=
  ∀ (p : Nat) (t : BitVec 6) (off : BitVec 36) (n val : Nat) (x y : Word) (s : State),
    let answered := fun (u : State) (r : HostReply) => (u.pkg p).hostReplies = (s.pkg p).hostReplies ++ [r] ∧ u.mem = s.mem ∧ u.cores = s.cores
    (∀ (bar : BitVec 2) (base size : Nat), (bar, base, size) ∈ [((0 : BitVec 2), 0x300008100000 + t.toNat * 0x10000, 0x10000),
        (1, 0x300008500000 + t.toNat * 0x1000, 0x1000)] → (s.pkg p).on = true → (s.pkg p).recovery = false →
      (∀ v, n = 8 → off.toNat % 8 = 0 → off.toNat < size → s.mmioRead (p * 2 ^ 46 + base + off.toNat) = some v →
        ∃ u, exec (.hostBar2Read p t ⟨bar, off⟩ n) s = .next u ∧ answered u (.data (leBytes 8 v.toNat))) ∧
      (size ≤ off.toNat → ∃ u, exec (.hostBar2Read p t ⟨bar, off⟩ n) s = .next u ∧ answered u .unsupportedRequest)) ∧
    (s.aperture p t off n = none → exec (.hostBar2Write p t off n val) s = .next s ∧
      exec (.hostBar2Read p t ⟨2, off⟩ n) s = .next (s.setPkg p { s.pkg p with hostReplies := (s.pkg p).hostReplies ++ [.unsupportedRequest] }) ∧
      ∀ op, exec (.hostAtomicOp p t off op n x y) s =
        .next (s.setPkg p { s.pkg p with hostReplies := (s.pkg p).hostReplies ++ [.unsupportedRequest] })) ∧
    ∀ pa, s.aperture p t off n = some pa → (s.pkg (paPkg pa)).on = true → s.admits p t pa n = true → s.readBusy pa n = false →
      (∀ i, i < n → s.failing (pa + i) = false) → s.mergesFailing pa n = false → (∀ d, s.region pa ≠ .granary d) → Memory.wf s.mem = true →
      (Claims.Unwatched s pa n → ∃ u, exec (.hostBar2Write p t off n val) s = .next u ∧ Claims.Holds s u pa n val) ∧
      (∃ u, exec (.hostBar2Read p t ⟨2, off⟩ n) s = .next u ∧ answered u (.data (memBytes s.mem pa n))) ∧
      ∀ op f, (op, f) ∈ [((0 : BitVec 2), 0), (1, 8), (2, 9)] → n = 4 ∨ n = 8 →
        (pa % n ≠ 0 ∨ (∃ c, s.region pa = .cell c) → exec (.hostAtomicOp p t off op n x y) s =
          .next (s.setPkg p { s.pkg p with hostReplies := (s.pkg p).hostReplies ++ [.completerAbort] })) ∧
        (pa % n = 0 → (∀ c, s.region pa ≠ .cell c) → Claims.Unwatched s pa n → ∃ u, exec (.hostAtomicOp p t off op n x y) s = .next u ∧
          (u.pkg p).hostReplies = (s.pkg p).hostReplies ++ [.data (memBytes s.mem pa n)] ∧
          Claims.Holds s u pa n (Claims.amoValue f (8 * n) (BitVec.ofNat _ (leNat (memBytes s.mem pa n))) (x.setWidth _) (y.setWidth _)).toNat)

/-! ### The fallow engine, Grexa's requests, errors and management (R336 to R338, R347 to R360, R365 to R379) -/

namespace Sys2Proof.Claims

/-- The oldest request has been answered: its reply, of kind 2, holds OP, the status, the count and the record's address (R356). -/
def Answered (s t : State) (p : Nat) (r : Request) (status count : Nat) : Prop :=
  (t.pkg p).fwreqs = (s.pkg p).fwreqs.drop 1 ∧ Event.grexaReplyRetry p ∈ t.flight ∧ ∃ m : Msg,
    (t.pkg p).replies = (s.pkg p).replies ++ [(r.tenant, r.reply, m)] ∧ m.kind = 2 ∧ m.slot = cidSlot r.reply ∧
    m.data = BitVec.ofNat 512 (leNat (leBytes 8 r.op ++ leBytes 8 status ++ leBytes 8 count ++ leBytes 8 r.at_))

/-- A parked continuation stands in a slot again: runnable, with the wake value in s1, 0 in s[D] and its other state
from the park context (R346, R351). -/
def Unparked (s t : State) (p e : Nat) (x : ParkEntry) (g : CoreId) (k : Nat) : Prop :=
  ((t.core g).slot k).st = .signalled ∧ ((t.core g).slot k).co.pc = memWord s.mem x.ctx ∧ ((t.core g).slot k).co.cid = mkCid g k ∧
  ((t.core g).slot k).co.rd x.reg = 0 ∧ (x.reg ≠ 1 → ((t.core g).slot k).co.rd 1 = x.wval) ∧
  t.entry p e = some { x with st := 3, resumed := true } ∧ t.mem = s.mem

/-- A write of 8 bytes to the wake word of an entry, here a store of another package: the watch is gone, the entry is woken with the value
written, in STATE 3 at its newest block where no move of it is in flight, and the promotion token, where it has one in this package, is
armed in the same step with the blocks that are away (R350). -/
def wakeTaken (s : State) (p e : Nat) (x : ParkEntry) : Prop :=
  ∀ (who : Who) (v : Nat) (q : Req), s.copyOf q.seq = none → Served s who q.tenant x.wtok 8 → s.mmioRead x.wtok = none → paPkg x.wtok = p → x.wtok % 8 = 0 →
    (s.pkg p).watches = [(x.wtok, e)] → ((s.pkg p).park.map (·.1)).Nodup →
    (x.ptokp = 0 ∨ paPkg x.ptokp = p ∧ s.failing x.ptokp = false ∧ s.homeOf x.ptokp ≠ .nowhere ∧
      (x.ptokp + 8 ≤ x.wtok ∨ x.wtok + 8 ≤ x.ptokp) ∧
      ∀ k, k < x.nused → tableEntry x.btab k + 8 ≤ x.wtok ∨ x.wtok + 8 ≤ tableEntry x.btab k) →
    ∃ t, exec (.remoteWriteAtHome who x.wtok 8 v q) s = .next t ∧ (t.pkg p).watches = [] ∧ Event.wakeWrite x.wtok (BitVec.ofNat 64 v) ∈ t.flight ∧
      memBytes t.mem x.wtok 8 = leBytes 8 v ∧
      (s.mover p e = none → t.entry p e = some { x with woken := true, wval := BitVec.ofNat 64 v, st := 3, pos := x.nused }) ∧
      (s.mover p e ≠ none → t.entry p e = some { x with woken := true, wval := BitVec.ofNat 64 v }) ∧
      (x.ptokp ≠ 0 → memWord t.mem x.ptokp = armed (memWord s.mem x.ptokp) (BitVec.ofNat 64 (s.awayBlocks p x)))

/-- Grexa's key of the block that a table entry names: its address, and whether that is one of flash (R349, R357). -/
def blockOf (w : Word) : Nat := (if w.extractLsb' 62 2 = 2 then 2 ^ 58 else 0) + (w.extractLsb' 0 58).toNat

end Sys2Proof.Claims

/-- R348 to R351: parked continuations age with the clock, are demoted when their dwell is over, and are woken by the write of
their wake word; the engine moves a context or a block at a time, which stands at its destination, with its table entry rewritten,
when the move completes; a woken continuation whose blocks are there resumes in a slot, or waits for one.
The model's own reading or choice in it: log 33. -/
def Obligations.ParkedContinuationsMove : Prop :=
  ∀ (p e : Nat) (s : State) (x : ParkEntry), s.entry p e = some x →
    (∃ t, exec (.parkClockTick p) s = .next t ∧ t.mem = s.mem ∧
      t.entry p e = some (if x.st = 1 then { x with age := (x.age + 1) % 2 ^ 32 } else x) ∧
      (∀ z, z = s.tenant p x.tenant.toNat → x.st = 1 → x.woken = false → x.stage = 0 → z.ndwell ≠ 0xFFFFFFFF →
        z.ndwell.toNat ≤ (x.age + 1) % 2 ^ 32 → Event.nearDwellExpiry p e ∈ t.flight) ∧
      (∀ z, z = s.tenant p x.tenant.toNat → x.st = 1 → x.woken = false → x.stage = 1 → z.fdwell ≠ 0xFFFFFFFF →
        z.fdwell.toNat ≤ (x.age + 1) % 2 ^ 32 → Event.farDwellExpiry p e ∈ t.flight)) ∧
    (∀ z, z = s.tenant p x.tenant.toNat → x.st = 1 → x.woken = false →
      (x.stage = 0 → z.ndwell ≠ 0xFFFFFFFF → z.ndwell.toNat ≤ x.age → ∃ t, exec (.nearDwellExpiry p e) s = .next t ∧
        t.entry p e = some { x with st := 2, pos := 0 } ∧ Event.blockMoveRegistration p e ∈ t.flight) ∧
      (x.stage = 1 → z.fdwell ≠ 0xFFFFFFFF → z.fdwell.toNat ≤ x.age → ∃ t, exec (.farDwellExpiry p e) s = .next t ∧
        t.entry p e = some { x with st := 2, pos := 0 } ∧ Event.blockMoveRegistration p e ∈ t.flight)) ∧
    (s.mover p e = none → x.st = 2 →
      (x.woken = true → ∃ t, exec (.blockMoveRegistration p e) s = .next t ∧ t.entry p e = some { x with st := 3, pos := x.nused } ∧
        Event.blockMoveRegistration p e ∈ t.flight) ∧
      (x.woken = false → x.ctier ≠ x.stage → s.nextDown p x = none → ∃ t, exec (.blockMoveRegistration p e) s = .next t ∧
        t.entry p e = some { x with st := 1, stage := x.stage + 1, age := 0, pos := 0 }) ∧
      (∀ k, s.nextDown p x = some k → x.pos ≤ k ∧ k < x.nused ∧ ((s.tableWord x.btab k).extractLsb' 62 2).toNat = x.stage ∧
        (x.stage = 1 → k ∉ x.still)) ∧
      ∀ dst u, x.woken = false → x.stage < 2 → x.ctier = x.stage → s.takeTier p x.tenant.toNat (x.stage + 1) x.ctxBytes 64 = some (dst, u) →
        paPkg x.ctx = p → (s.pkg p).locks = [] → (s.pkg p).sole = none → (s.pkg p).movers = [] → ∃ t, exec (.blockMoveRegistration p e) s = .next t ∧
          Event.contextMoveCompletion p e ∈ t.flight ∧ t.mem = s.mem ∧ ∃ m, (t.pkg p).movers = [m] ∧ m.entry = e ∧ m.block = none ∧
            m.frm = x.stage ∧ m.into = x.stage + 1 ∧ m.src = x.ctx ∧ m.dst = dst ∧ m.len = x.ctxBytes ∧
            m.data = memBytes s.mem x.ctx x.ctxBytes) ∧
    (∀ m, s.mover p e = some m →
      (∀ k, m.block = some k → m.bad = none → openRun (tableEntry x.btab k) 8 = true → Memory.wf s.mem = true →
          Claims.Unwatched s (tableEntry x.btab k) 8 → ∃ t, exec (.blockMoveCompletion p e) s = .next t ∧
        t.tableWord x.btab k = BitVec.ofNat 64 (m.into % 4 * 2 ^ 62 + m.dst % 2 ^ 58) ∧
        (∀ m' ∈ (t.pkg p).movers, m'.id ≠ m.id) ∧ (∀ l ∈ (t.pkg p).locks, l.owner ≠ m.id) ∧
        (m.into ≠ 2 → ∀ i, i < m.data.length → (m.dst + i < tableEntry x.btab k ∨ tableEntry x.btab k + 8 ≤ m.dst + i) →
          memGet t.mem (m.dst + i) = m.data.getD i 0)) ∧
      (m.block = none → m.bad = none → ∃ t y, exec (.contextMoveCompletion p e) s = .next t ∧ t.entry p e = some y ∧
        y.ctx = m.dst ∧ y.ctier = m.into ∧ y.st = x.st ∧ Event.blockMoveRegistration p e ∈ t.flight) ∧
      ∀ bad, m.block = none → m.bad = some bad → ∃ t, exec (.contextMoveCompletion p e) s = .next t ∧ t.entry p e = none) ∧
    Claims.wakeTaken s p e x ∧
    (∀ v, x.woken = true → paPkg x.wtok = p → ∃ t, exec (.wakeWrite x.wtok v) s = .next t ∧
      Event.blockMoveRegistration p e ∈ t.flight ∧ t.mem = s.mem ∧ t.pkgs = s.pkgs) ∧
    (s.mayResume x = true →
      (∀ g k, (∀ n ∈ (s.pkg p).waitSlot, ∀ y, s.entry p n = some y → y.tenant ≠ x.tenant) →
        s.resumePlace p x = some (g, k) → s.firstFailing x.ctx x.csize = none → (s.core g).cacheUsed = 0 →
        ((parkedCo s.mem x.ctx).explicitSize (memWord s.mem (x.ctx + 32) ||| 2 ||| BitVec.twoPow 64 x.reg.toNat) + 63) / 64 * 64 ≤ 196608 →
        ∃ t, exec (.parkResume p e) s = .next t ∧ Claims.Unparked s t p e x g k) ∧
      (s.resumePlace p x = none ∨ (∃ n ∈ (s.pkg p).waitSlot, ∃ y, s.entry p n = some y ∧ y.tenant = x.tenant) → ∃ t, exec (.parkResume p e) s = .next t ∧ t.entry p e = some { x with st := 4 } ∧
        (t.pkg p).waitSlot = (s.pkg p).waitSlot ++ [e])) ∧
    ∀ rest g k, (s.pkg p).waitSlot = e :: rest → x.st = 4 → s.resumePlace p x = some (g, k) → s.firstFailing x.ctx x.csize = none →
      (s.core g).cacheUsed = 0 →
      ((parkedCo s.mem x.ctx).explicitSize (memWord s.mem (x.ctx + 32) ||| 2 ||| BitVec.twoPow 64 x.reg.toNat) + 63) / 64 * 64 ≤ 196608 →
      ∃ t, exec (.parkWaitSlotPlace p x.tenant) s = .next t ∧ Claims.Unparked s t p e x g k

/-- R355 to R358: Grexa's requests. FWREQ queues a record of the tenant's; a refill grants blocks to a core's cache; an insertion
records a new key with its blocks, or shares those of the first one; a drop makes the named entries absent; every request
is answered by a reply, which goes to its core's mailbox once there is room.
The model's own reading or choice in it: logs 17, 33 and 65. -/
def Obligations.GrexaServesRequests : Prop :=
  ∀ (p : Nat) (s : State),
    (∀ (t : BitVec 6) (pa : Pa), (s.inWindow p t.toNat pa 64 = false → exec (.fwreq p t pa) s = .next s) ∧
      (s.inWindow p t.toNat pa 64 = true → ∃ u, exec (.fwreq p t pa) s = .next u ∧ (u.pkg p).fwreqs = (s.pkg p).fwreqs ++ [(t, pa)] ∧
        u.mem = s.mem)) ∧
    (∀ r, s.request p = some r →
      (r.op = 1 → 1 ≤ r.count → r.count ≤ 16 → pkgOf (cidCore r.reply) = p → s.mailboxOpen p r.tenant r.reply = true →
        ∃ t bs, exec (.grexaRefill p) s = .next t ∧ (t.core (cidCore r.reply)).blocks = (s.core (cidCore r.reply)).blocks ++ bs ∧
          bs.length ≤ r.count ∧ t.mem = s.mem ∧
          (bs.length ≠ 0 ∨ 16 ≤ (s.core (cidCore r.reply)).blocks.length → Claims.Answered s t p r 0 bs.length) ∧
          (bs.length = 0 → (s.core (cidCore r.reply)).blocks.length < 16 → Claims.Answered s t p r 2 0)) ∧
      (r.op ≠ 1 → r.op ≠ 2 → r.op ≠ 3 → ∃ t, exec (.grexaRefill p) s = .next t ∧ Claims.Answered s t p r 2 0 ∧ t.cores = s.cores) ∧
      (r.op = 2 → s.tableOk p r = false → ∃ t, exec (.grexaInsert p) s = .next t ∧ Claims.Answered s t p r 2 0) ∧
      (r.op = 2 → s.tableOk p r = true → (∀ y ∈ (s.pkg p).prefixes, y.1 ≠ r.key) → ∃ t, exec (.grexaInsert p) s = .next t ∧
        Claims.Answered s t p r 0 r.count ∧ t.mem = s.mem ∧
        (t.pkg p).prefixes = (s.pkg p).prefixes ++
          [(r.key, (List.range r.count).map fun i => Claims.blockOf (s.tableWord r.table (r.first + i)))]) ∧
      (∀ win, r.op = 2 → s.tableOk p r = true → (s.pkg p).prefixes.find? (·.1 == r.key) = some (r.key, win) → win.length = r.count →
        Memory.wf s.mem = true → (∀ q, (s.pkg q).watches = []) → ∃ t, exec (.grexaInsert p) s = .next t ∧ Claims.Answered s t p r 1 r.count ∧
          (t.pkg p).prefixes = (s.pkg p).prefixes ∧
          ∀ i, i < r.count → t.tableWord r.table (r.first + i) = BitVec.ofNat 64 (win.getD i 0 % 2 ^ 58)) ∧
      (r.op = 3 → s.tableOk p r = true → Memory.wf s.mem = true → (∀ q, (s.pkg q).watches = []) → ∃ t, exec (.grexaDrop p) s = .next t ∧
        Claims.Answered s t p r 0 r.count ∧
        ∀ i w, i < r.count → w = s.tableWord r.table (r.first + i) → (t.tableWord r.table (r.first + i)).extractLsb' 62 2 = 3 ∧
          (w.extractLsb' 62 2 ≠ 3 → (s.pkg p).counts.Pairwise (·.1 < ·.1) →
            Tab.get 1 (t.pkg p).counts (Claims.blockOf w) ≤ max 1 (Tab.get 1 (s.pkg p).counts (Claims.blockOf w) - 1))) ∧
      ∀ ev, (r.op, ev) ∈ [(2, Event.grexaInsert p), (3, .grexaDrop p)] → ∃ t, exec (.grexaRefill p) s = .next t ∧ ev ∈ t.flight ∧
        t.pkgs = s.pkgs ∧ t.mem = s.mem) ∧
    ∀ (t : BitVec 6) dst m rest, (s.pkg p).replies = (t, dst, m) :: rest →
      (s.mailboxOpen p t dst = false → exec (.grexaReplyRetry p) s = .next (s.setPkg p { s.pkg p with replies := rest })) ∧
      (s.mailboxOpen p t dst = true → (s.core (cidCore dst)).mailbox.length < 64 → ∃ u, exec (.grexaReplyRetry p) s = .next u ∧
        (u.pkg p).replies = rest ∧ (u.core (cidCore dst)).mailbox = (s.core (cidCore dst)).mailbox ++ [m])

/-- R336 to R338, R366, R369 to R379: links, scrubbing, snapshots, module resets, attestation, power and management.
The model's own reading or choice in it: logs 18, 35, 37, 39 and 41. -/
def Obligations.DeviceManagement : Prop :=
  (∀ (p : Nat) (s : State),
    (∀ i : BitVec 1, ∃ t, exec (.cxlLinkFailure p i) s = .next t ∧ t.mem = s.mem ∧ t.cores = s.cores ∧ t.flight = s.flight ∧
      ∀ a, paPkg a = p → s.region a = .cxl i.toNat → t.failing a = true) ∧
    (∀ a i, s.region a = .cxl i → paPkg a = p → exec (.cxlWriteAckLost p a) s = .next (s.pageError 5 a false)) ∧
    (∀ i : BitVec 7, ∃ t, exec (.fabricPortFailure p i) s = .next t ∧ i.toNat ∈ (t.pkg p).ports ∧ t.mem = s.mem ∧ t.cores = s.cores ∧
      t.flight = s.flight) ∧
    (∀ (a : Pa) (n : Nat), n = (a / 128 % 8) ^^^ (a / 1024 % 8) ^^^ (a / 8192 % 8) →
      ((∃ j, j < 128 ∧ j ∉ (s.pkg p).ports) → s.portsFor p a ≠ []) ∧ (∀ j ∈ s.portsFor p a, j < 128 ∧ j ∉ (s.pkg p).ports) ∧
      ((∃ j, j / 16 = n ∧ j ∉ (s.pkg p).ports) → ∀ j ∈ s.portsFor p a, j / 16 = n)) ∧
    ((∀ x ∈ (s.pkg p).snap.pending, x.1 ≠ s.elapsed) →
      ((s.pkg p).snap.arm = true → ∃ t, exec (.snaptrig p) s = .next t ∧ Event.snapshotLatch p ∈ t.flight ∧
        (t.pkg p).snap = { (s.pkg p).snap with arm := false, pending := (s.pkg p).snap.pending ++ [(s.elapsed, 1)] }) ∧
      ((s.pkg p).snap.arm = false → exec (.snaptrig p) s = .next s)) ∧
    ((s.pkg p).snap.pending = [] → exec (.snapshotLatch p) s = .next s) ∧
    (∀ cycle src rest, (s.pkg p).snap.pending = (cycle, src) :: rest → ∃ t, exec (.snapshotLatch p) s = .next t ∧
      (t.pkg p).snap.pending = rest ∧ cycle + 24 ≤ t.elapsed ∧ (t.pkg p).snap.arm = (s.pkg p).snap.arm ∧
      (t.pkg p).snap.count.toNat = ((s.pkg p).snap.count.toNat + 1) % 2 ^ 16 ∧ (t.pkg p).snap.src = BitVec.ofNat 64 src ∧ t.mem = s.mem) ∧
    (∀ (n : BitVec 32) (nonce : BitVec 256), (s.pkg p).recovery = false → (s.pkg p).on = true → n.toNat < 64 ∨ n = 0xFFFFFFFF →
      ∃ t b, exec (.attestationRequest p n nonce) s = .next t ∧ b.length = 256 ∧ b.take 8 = leBytes 4 1 ++ leBytes 4 n.toNat ∧
        (b.drop 160).take 32 = leBytes 32 nonce.toNat ∧
        (t.pkg p).report = b ++ leBytes 64 (Config.ed25519Sign p b).toNat) ∧
    exec (.thermalThrottle p) s = .next (s.setPkg p { s.pkg p with throttled := true }) ∧
    exec (.thermalShutdown p) s = .next (s.setPkg p { s.pkg p with on := false }) ∧
    (∀ w, exec (.powerCapSet p w) s = .next (s.setPkg p { s.pkg p with cap := w })) ∧
    (∀ im, exec (.grexaImageStage p im) s = .next (s.setPkg p { s.pkg p with images := (s.pkg p).images.set 1 (some im) })) ∧
    (∀ a, exec (.i3cDynamicAddress p a) s = .next (s.setPkg p { s.pkg p with i3c := a })) ∧
    (∃ t, exec (.warmModuleReset p) s = .next t ∧ (t.pkg p).boots = (s.pkg p).boots + 1 ∧ (t.pkg p).tenants.all (fun x => x.2.cfg.windows == []) ∧
      (∀ g, pkgOf g = p → (t.core g).running = none ∧ ∀ k, ((t.core g).slot k).st = .free) ∧
      ((∀ x ∈ (s.pkg p).mirror, x.2.ptokp = 0) → ∀ a, memGet t.mem a = if s.keptWarm p a then memGet s.mem a else 0)) ∧
    ∃ t, exec (.coldModuleReset p) s = .next t ∧ (t.pkg p).boots = (s.pkg p).boots + 1 ∧ (t.pkg p).park = [] ∧ (t.pkg p).tenants = [] ∧
      (∀ g, pkgOf g = p → (t.core g).running = none ∧ ∀ k, ((t.core g).slot k).st = .free) ∧
      ∀ a, memGet t.mem a = if paPkg a = p then 0 else memGet s.mem a) ∧
  ∀ (a : Pa) (s : State), (s.pkg (paPkg a)).on = true → s.region a = .hbm ∨ (∃ i, s.region a = .cxl i) ∨ (∃ d, s.region a = .granary d) →
    (s.memoryFails a = true ∨ s.linkDown a = true →
      ∃ t, exec (.patrolScrub a) s = .next t ∧ a / 65536 * 65536 ∈ (t.pkg (paPkg a)).retired) ∧
    (s.memoryFails a = false → s.linkDown a = false → s.codeword a ∈ (s.pkg (paPkg a)).weak → ∃ t, exec (.patrolScrub a) s = .next t ∧
      s.codeword a ∉ (t.pkg (paPkg a)).weak ∧ (a / 65536 * 65536, s.elapsed) ∈ (t.pkg (paPkg a)).corrected) ∧
    (s.memoryFails a = false → s.linkDown a = false → (∀ q, (s.pkg q).weak = []) → (s.pkg (paPkg a)).corrected = [] →
      ∃ t, exec (.patrolScrub a) s = .next t ∧ t.mem = s.mem ∧ t.cores = s.cores ∧ ∀ q, t.pkg q = s.pkg q) ∧
    ∀ b, b % 65536 = 0 → 16 ≤ ((s.pkg (paPkg a)).corrected.filter fun x => x.1 == b && s.elapsed - x.2 < 60480000000000).length →
      ∃ t, exec (.patrolScrub a) s = .next t ∧ b ∈ (t.pkg (paPkg a)).retired

/-! ### Encoding, the step, storage and reset (R12 to R22, R68, R69, R77 to R83, R116, R378) -/

namespace Sys2Proof.Claims

/-- Heads and tails written out in the spec, with the instructions that they stand for. -/
def writtenWords : List (BitVec 16 × Word × Instr) :=
  [(0xC428, 0x0000123456789ABC, .liD 5 0x0000123456789ABC), (0x4230, 0x2840, .add 6 5 1), (0x8330, 0x37FFFFFC, .addi 6 6 (-4)),
   (0x0000, 0, .nop), (0x0002, 0, .exit 0), (0x8101, 0x48400000, .csrw 0 9 0x040),
   (0xA028, 0x200000E0, .setvl 5 4 1 12), (0xA208, 0x10C92461, .vffma ⟨0, 1, 2, 3, 4, true, 1, 0x61⟩),
   (0xA91A, 0x21414060, .vldx ⟨2, 3, 4, 5, 0, true, 2, 0x60⟩), (0xAB48, 0x20452061, .vaadd ⟨0, 9, 4, 1, 2, true, 1, 0x61⟩),
   (0xAC31, 0x21460000, .vxlateff ⟨1, 6, 4, 5, 3, false, 0, 0⟩), (0xA118, 0x08800010, .vadd ⟨0, 3, 1, 2, 0, false, 0, 0x10⟩),
   (0x8E51, 0x21820000, .loop 1 10 4 6 2), (0xD128, 0xF, .await 5 0xF), (0xD113, 0xF, .awaitb 2 0xF),
   (0x5300, 0x2141, .tsig 4 5), (0x5338, 0x2003, .tpoll 7 4), (0x5428, 0x31C0, .msend 5 6 7),
   (0x6F10, 0x2140, .gset 2 4 5), (0xAE1A, 0x080C0060, .vallred ⟨2, 3, 1, 0, 6, false, 0, 0x60⟩),
   (0x9C28, 0x218200B0, .xbswap 5 4 6 1 1 0x30), (0xB000, 0x48000048, .mloadw 9 9), (0xB012, 0x01C20180, .mreadPair 2 2 7),
   (0xD550, 0xF, .park 10 0xF), (0x5628, 0x0000, .balloc 5), (0x5600, 0x2801, .bfree 5)]

/-- The core in focus can go on with its coroutine: that is not in an await, no part of a pass, of a collective or of a chunk comes
first, and its package has power and runs a verified image (R105, R248, R252, R276, R374, R377). -/
def GoesOn (u : State) : Prop :=
  (∃ k, u.cur.running = some k ∧ (u.cur.slot k).wait = .nothing) ∧ (u.pkg (pkgOf u.focus)).live = true ∧ u.cur.mergeDue = none ∧
  u.co.lpend = false ∧ u.cur.chunk.ended = false ∧ (u.ext.sole = true → (u.pkg (pkgOf u.focus)).sole = some u.focus)

/-- It fetches: its slot is not to be evicted, its quantum is not over, inside an instruction apart, and its loop state is one that a loop can
have (R75, R165, R203, R205). -/
def Fetches (u : State) : Prop :=
  GoesOn u ∧ (u.co.cont = 0 → u.ext.ended = false → u.cur.evicting = false ∧ (u.co.quantum ≠ 0 → u.ext.chunks < u.co.quantum.toNat)) ∧ u.co.lbad = false

/-- It issues: the fetch need not wait for the walker (R305). -/
def Issues (u : State) : Prop := Fetches u ∧ u.fetchWait = none

/-- The state u in which step is about to issue from s: cycles have passed, and the agenda or the core's turn says so. -/
def TurnOf (s u : State) : Prop :=
  (∃ g r, s.agenda = .core g :: r ∧ u = { s.tick with agenda := r, focus := g }) ∨
  (s.agenda = [] ∧ s.tick.canIssue s.focus = true ∧ s.burst < 8 ∧ u = { s.tick with burst := s.burst + 1 })

/-- The state u with the line of its PC in the core, its page noted in the chunk, and the successor of its head (R12, R20, R307). -/
def withLineOf (u : State) (b : List Byte) : State :=
  let pc := u.co.pc
  let v := u.noteFetch (lineStart pc)
  let c := v.cur
  v.setCur { c with
    co := { c.co with next := if pc.toNat % 64 / 2 < lineCount b then pc + 2 else lineStart pc + 66 }
    line := some ⟨lineStart pc, c.co.asid, u.lineUser (lineStart pc), some b⟩
    ahead := c.ahead.filter (·.va != lineStart pc) }

end Sys2Proof.Claims

/-- R16, R17, R77 to R83: for every well-formed instruction that has words, at every value of its operands, decoding the
words that the encoder forms gives the instruction back. -/
def Obligations.EncodeThenDecode : Prop :=
  ∀ (i : Instr) (h : BitVec 16) (t : Word), i.wf = true → encode i = some (h, t) → decode h t = .ok i

/-- R16 to R18, R77, R81, R83: whatever head and tail the decoder accepts are well formed and are exactly the words of the
instruction that it reads: no bit of an accepted encoding is ignored. -/
def Obligations.DecodeThenEncode : Prop :=
  ∀ (i : Instr) (h : BitVec 16) (t : Word), decode h t = .ok i → t.toNat < 256 ^ tailBytes h → i.wf = true ∧ encode i = some (h, t)

/-- The worked encodings of the spec decode to the instructions that they are written for. -/
def Obligations.WrittenWordsDecode : Prop :=
  ∀ x ∈ Claims.writtenWords, decode x.1 x.2.1 = .ok x.2.2 ∧ encode x.2.2 = some (x.1, x.2.1)

/-- R12, R15, R18 to R22, R83: a step that issues fetches the line of the PC and executes the instruction that its head and tail
stand for; an encoding that is no instruction, a line that is ill-formed, unmapped or failing, and a PC that is no head take their
traps. R203, R305: a core whose slot is to be evicted issues nothing beyond its boundary, and a fetch that must wait for the walker joins the
walk of its page. R105: where the head is the last of a loop's body and the advance after it meets something, the head has not executed
(withAdvance).
The model's own reading or choice in it: logs 4, 8, 20, 22 and 61. -/
def Obligations.StepRunsDecodedInstruction : Prop :=
  ∀ (s u : State) (pc : Word) (n : Nat), Claims.TurnOf s u → pc = u.co.pc → n = pc.toNat % 64 / 2 →
    (Claims.GoesOn u → u.cur.evicting = true → u.co.cont = 0 → u.ext.ended = false → step s = .next u.stall) ∧
    (∀ va, Claims.Fetches u → u.fetchWait = some va → step s = .next (u.awaitWalk u.co.asid va)) ∧
    (Claims.Issues u → ∀ v, v = u.noteFetch (Claims.lineStart pc) →
      (pc.toNat % 64 = 0 ∨ pc.toNat % 2 = 1 → step s = .next (v.takeTrap ⟨3, pc, 0, none⟩ pc)) ∧
      (pc.toNat % 64 ≠ 0 → pc.toNat % 2 = 0 →
        (∀ m, u.lineBytes u.focus u.co.mode (Claims.lineStart pc) = .error m →
          step s = .next (v.takeTrap ⟨if m = .page then 4 else 8, Claims.lineStart pc, 0, m.bad⟩ pc)) ∧
        ∀ b, u.lineBytes u.focus u.co.mode (Claims.lineStart pc) = .ok b →
          (lineWf b = false → step s = .next (v.takeTrap ⟨2, Claims.lineStart pc, 0, none⟩ pc)) ∧
          (lineWf b = true → lineCount b < n → step s = .next (v.takeTrap ⟨3, pc, 0, none⟩ pc)) ∧
          (lineWf b = true → n ≤ lineCount b →
            (∀ i, decodeAt b n = .ok i → i.wf = true ∧ step s = (Claims.withLineOf u b).withAdvance (exec i (Claims.withLineOf u b))) ∧
            ∀ e, decodeAt b n = .error e →
              step s = exec (.illegalInstruction (lineHead b n) (lineTail b n)) (Claims.withLineOf u b))))

/-- R68, R69, R116, and the model's own form of memory: what is written is read back and nothing else changes. A byte of a
canonical memory, with one list for each memory; a scalar register, where s0 stays zero; a vector element among all elements of
its width in all registers; a bit of a mask.
The model's own reading or choice in it: log 2. -/
def Obligations.WhatIsWrittenReadsBack : Prop :=
  (∀ (m : List Host.Cell) (a : Nat) (b : Byte), Memory.wf m = true → Memory.wf (memSet m a b) = true ∧
    ∀ k, memGet (memSet m a b) k = if k = a then b else memGet m k) ∧
  (∀ m m' : List Host.Cell, Memory.wf m = true → Memory.wf m' = true → (∀ a, memGet m a = memGet m' a) → m = m') ∧
  (∀ (c : Co) (r q : Reg) (x : Word), (c.wr r x).rd q = if q = 0 then 0 else if q = r then x else c.rd q) ∧
  (∀ (c : Co) (r q w i j x : Nat), w ∈ [4, 8, 16, 32, 64] → Memory.wf c.v = true → r < c.nregs → q < c.nregs →
    i < vlmaxW w c.nregs → j < vlmaxW w c.nregs → Memory.wf (c.setElem r w i x).v = true ∧
    (c.setElem r w i x).elem q w j = if q = r ∧ j = i then x % 2 ^ w else c.elem q w j) ∧
  ∀ (c : Co) (r q : BitVec 3) (x : BitVec 65536) (i : Nat), (c.setMask r x).mbit q i = if q = r then x.getLsbD i else c.mbit q i

/-- R74, R173, R182, R194, R301, R378: the state after reset. Nothing runs and every slot is free; the quantum, the weights of the
arbiter, the default rounding mode and the watchdog have their values; accumulators and the state of every coroutine are zero;
nothing is under way, and a step changes only the cycle count. (Memory that nothing has written reads as zero and most registers
start at zero by the model's own choice; logs 1, 2, 7 and 16 to 18.) Both canonical forms hold. -/
def Obligations.ResetState : Prop :=
  State.reset.Inv ∧ State.reset.VInv ∧
  (∀ g, (State.reset.core g).running = none ∧ (State.reset.core g).mailbox = [] ∧ (State.reset.core g).tlb = [] ∧
    (∀ k, ((State.reset.core g).slot k).st = .free) ∧ (State.reset.core g).wdog = 700000000 ∧
    (∀ r, (State.reset.core g).co.rd r = 0) ∧ (State.reset.core g).co.quantum = 4096 ∧ (State.reset.core g).co.fmode = 1 ∧
    (State.reset.core g).co.pend = 0 ∧ (State.reset.core g).co.mode = .user) ∧
  (∀ cl, (State.reset.cluster cl).acc = [] ∧ (State.reset.cluster cl).marbw = 0x0101010101010101 ∧
    (State.reset.cluster cl).l2cfg = 0x10 ∧ ∀ t r e, (State.reset.cluster cl).accAt t r e = 0) ∧
  (∀ p t, (State.reset.tenant p t).ndwell = 10000000 ∧ (State.reset.tenant p t).fdwell = 600000000 ∧
    (State.reset.tenant p t).blog2 = 16 ∧ (State.reset.tenant p t).cfg.windows = []) ∧
  (∀ a, memGet State.reset.mem a = 0) ∧ State.reset.flight = [] ∧
  ∃ n, step State.reset = .next { State.reset with elapsed := n }

/-- The model's form of memory, an invariant: every step that answers a next state keeps the addresses rising and no
entry zero, whatever else the state holds.
The model's own reading or choice in it: log 2. -/
def Obligations.StepsKeepMemoryCanonical : Prop := ∀ s t : State, s.Inv → step s = .next t → t.Inv

/-- The same of the vector registers of every coroutine, in its core, at its chunk's start and in its slots.
The model's own reading or choice in it: log 2. -/
def Obligations.StepsKeepVectorsCanonical : Prop := ∀ s t : State, s.VInv → step s = .next t → t.VInv
end

