-- ==== Sys2Proof/Laws/Encoding.lean ====
section
/-!
SUPPORT. The fields of the words that the encoder builds: every field of a head or tail reads back as it was put in.
With these a proof that an encoded instruction decodes to itself is a case analysis and simp.
-/

namespace Sys2Proof.Laws

/-- A field above the lowest part of a concatenation lies in the upper part. -/
theorem extract_high {m n k w : Nat} (a : BitVec m) (b : BitVec n) :
    (a ++ b).extractLsb' (n + k) w = a.extractLsb' k w := by
  ext i h
  simp only [BitVec.getElem_extractLsb', BitVec.getLsbD_append]
  rw [if_neg (by omega)]
  congr 1
  omega

/-- A field inside the lowest part of a concatenation lies there. -/
theorem extract_low {m n k w : Nat} (a : BitVec m) (b : BitVec n) (h : k + w ≤ n) :
    (a ++ b).extractLsb' k w = b.extractLsb' k w := by
  ext i hi
  simp only [BitVec.getElem_extractLsb', BitVec.getLsbD_append]
  rw [if_pos (by omega)]

/-- The whole of a word. -/
theorem extract_all {n : Nat} (a : BitVec n) : a.extractLsb' 0 n = a := by
  ext i h
  simp

@[simp] theorem ofBool_one (b : Bool) : (BitVec.ofBool b == 1#1) = b := by
  cases b <;> rfl

@[simp] theorem widthCode_wide (b : Bool) : (widthCode b == 1#3) = b := by
  cases b <;> rfl

@[simp] theorem widthCode_le (b : Bool) : ¬ 1 < (widthCode b).toNat := by
  cases b <;> decide

@[simp] theorem fault_mask_bit (b : Bool) : ((0#5 ++ BitVec.ofBool b : BitVec 6) == 1#6) = b := by
  cases b <;> rfl

@[simp] theorem hx_head (tl : BitVec 2) (op : BitVec 6) (d : Reg) (x : BitVec 3) : hx (head tl op d x) = x :=
  ((extract_low (tl ++ op ++ d) x (by decide)).trans (extract_all x))

@[simp] theorem hd_head (tl : BitVec 2) (op : BitVec 6) (d : Reg) (x : BitVec 3) : hd (head tl op d x) = d :=
  ((extract_high (n := 3) (k := 0) (w := 5) (tl ++ op ++ d) x).trans ((extract_low (tl ++ op) d (by decide)).trans (extract_all d)))

@[simp] theorem hop_head (tl : BitVec 2) (op : BitVec 6) (d : Reg) (x : BitVec 3) : hop (head tl op d x) = op :=
  ((extract_high (n := 3) (k := 5) (w := 6) (tl ++ op ++ d) x).trans ((extract_high (n := 5) (k := 0) (w := 6) (tl ++ op) d).trans ((extract_low tl op (by decide)).trans (extract_all op))))

@[simp] theorem htl_head (tl : BitVec 2) (op : BitVec 6) (d : Reg) (x : BitVec 3) : htl (head tl op d x) = tl :=
  ((extract_high (n := 3) (k := 11) (w := 2) (tl ++ op ++ d) x).trans ((extract_high (n := 5) (k := 6) (w := 2) (tl ++ op) d).trans ((extract_high (n := 6) (k := 0) (w := 2) tl op).trans (extract_all tl))))

@[simp] theorem sf_tail16 (a b : Reg) (f : BitVec 6) : sf (tail16 a b f) = f :=
  ((extract_low ((0#48) ++ a ++ b) f (by decide)).trans (extract_all f))

@[simp] theorem sb_tail16 (a b : Reg) (f : BitVec 6) : sb (tail16 a b f) = b :=
  ((extract_high (n := 6) (k := 0) (w := 5) ((0#48) ++ a ++ b) f).trans ((extract_low ((0#48) ++ a) b (by decide)).trans (extract_all b)))

@[simp] theorem sa_tail16 (a b : Reg) (f : BitVec 6) : sa (tail16 a b f) = a :=
  ((extract_high (n := 6) (k := 5) (w := 5) ((0#48) ++ a ++ b) f).trans ((extract_high (n := 5) (k := 0) (w := 5) ((0#48) ++ a) b).trans ((extract_low (0#48) a (by decide)).trans (extract_all a))))

@[simp] theorem y_tailR (a b c : Reg) (mk : Bool) (mr : BitVec 3) (f : BitVec 6) (y : BitVec 7) : BitVec.extractLsb' 0 7 (tailR a b c mk mr f y) = y :=
  ((extract_low ((0#32) ++ a ++ b ++ c ++ (BitVec.ofBool mk) ++ mr ++ f) y (by decide)).trans (extract_all y))

@[simp] theorem tf_tailR (a b c : Reg) (mk : Bool) (mr : BitVec 3) (f : BitVec 6) (y : BitVec 7) : tf (tailR a b c mk mr f y) = f :=
  ((extract_high (n := 7) (k := 0) (w := 6) ((0#32) ++ a ++ b ++ c ++ (BitVec.ofBool mk) ++ mr ++ f) y).trans ((extract_low ((0#32) ++ a ++ b ++ c ++ (BitVec.ofBool mk) ++ mr) f (by decide)).trans (extract_all f)))

@[simp] theorem mr_tailR (a b c : Reg) (mk : Bool) (mr : BitVec 3) (f : BitVec 6) (y : BitVec 7) : BitVec.extractLsb' 13 3 (tailR a b c mk mr f y) = mr :=
  ((extract_high (n := 7) (k := 6) (w := 3) ((0#32) ++ a ++ b ++ c ++ (BitVec.ofBool mk) ++ mr ++ f) y).trans ((extract_high (n := 6) (k := 0) (w := 3) ((0#32) ++ a ++ b ++ c ++ (BitVec.ofBool mk) ++ mr) f).trans ((extract_low ((0#32) ++ a ++ b ++ c ++ (BitVec.ofBool mk)) mr (by decide)).trans (extract_all mr))))

@[simp] theorem mk_tailR (a b c : Reg) (mk : Bool) (mr : BitVec 3) (f : BitVec 6) (y : BitVec 7) : BitVec.extractLsb' 16 1 (tailR a b c mk mr f y) = BitVec.ofBool mk :=
  ((extract_high (n := 7) (k := 9) (w := 1) ((0#32) ++ a ++ b ++ c ++ (BitVec.ofBool mk) ++ mr ++ f) y).trans ((extract_high (n := 6) (k := 3) (w := 1) ((0#32) ++ a ++ b ++ c ++ (BitVec.ofBool mk) ++ mr) f).trans ((extract_high (n := 3) (k := 0) (w := 1) ((0#32) ++ a ++ b ++ c ++ (BitVec.ofBool mk)) mr).trans ((extract_low ((0#32) ++ a ++ b ++ c) (BitVec.ofBool mk) (by decide)).trans (extract_all (BitVec.ofBool mk))))))

@[simp] theorem tc_tailR (a b c : Reg) (mk : Bool) (mr : BitVec 3) (f : BitVec 6) (y : BitVec 7) : tc (tailR a b c mk mr f y) = c :=
  ((extract_high (n := 7) (k := 10) (w := 5) ((0#32) ++ a ++ b ++ c ++ (BitVec.ofBool mk) ++ mr ++ f) y).trans ((extract_high (n := 6) (k := 4) (w := 5) ((0#32) ++ a ++ b ++ c ++ (BitVec.ofBool mk) ++ mr) f).trans ((extract_high (n := 3) (k := 1) (w := 5) ((0#32) ++ a ++ b ++ c ++ (BitVec.ofBool mk)) mr).trans ((extract_high (n := 1) (k := 0) (w := 5) ((0#32) ++ a ++ b ++ c) (BitVec.ofBool mk)).trans ((extract_low ((0#32) ++ a ++ b) c (by decide)).trans (extract_all c))))))

@[simp] theorem tb_tailR (a b c : Reg) (mk : Bool) (mr : BitVec 3) (f : BitVec 6) (y : BitVec 7) : tb (tailR a b c mk mr f y) = b :=
  ((extract_high (n := 7) (k := 15) (w := 5) ((0#32) ++ a ++ b ++ c ++ (BitVec.ofBool mk) ++ mr ++ f) y).trans ((extract_high (n := 6) (k := 9) (w := 5) ((0#32) ++ a ++ b ++ c ++ (BitVec.ofBool mk) ++ mr) f).trans ((extract_high (n := 3) (k := 6) (w := 5) ((0#32) ++ a ++ b ++ c ++ (BitVec.ofBool mk)) mr).trans ((extract_high (n := 1) (k := 5) (w := 5) ((0#32) ++ a ++ b ++ c) (BitVec.ofBool mk)).trans ((extract_high (n := 5) (k := 0) (w := 5) ((0#32) ++ a ++ b) c).trans ((extract_low ((0#32) ++ a) b (by decide)).trans (extract_all b)))))))

@[simp] theorem ta_tailR (a b c : Reg) (mk : Bool) (mr : BitVec 3) (f : BitVec 6) (y : BitVec 7) : ta (tailR a b c mk mr f y) = a :=
  ((extract_high (n := 7) (k := 20) (w := 5) ((0#32) ++ a ++ b ++ c ++ (BitVec.ofBool mk) ++ mr ++ f) y).trans ((extract_high (n := 6) (k := 14) (w := 5) ((0#32) ++ a ++ b ++ c ++ (BitVec.ofBool mk) ++ mr) f).trans ((extract_high (n := 3) (k := 11) (w := 5) ((0#32) ++ a ++ b ++ c ++ (BitVec.ofBool mk)) mr).trans ((extract_high (n := 1) (k := 10) (w := 5) ((0#32) ++ a ++ b ++ c) (BitVec.ofBool mk)).trans ((extract_high (n := 5) (k := 5) (w := 5) ((0#32) ++ a ++ b) c).trans ((extract_high (n := 5) (k := 0) (w := 5) ((0#32) ++ a) b).trans ((extract_low (0#32) a (by decide)).trans (extract_all a))))))))

@[simp] theorem imm_tailI (a : Reg) (imm : BitVec 27) : BitVec.extractLsb' 0 27 (tailI a imm) = imm :=
  ((extract_low ((0#32) ++ a) imm (by decide)).trans (extract_all imm))

@[simp] theorem ta_tailI (a : Reg) (imm : BitVec 27) : ta (tailI a imm) = a :=
  ((extract_high (n := 27) (k := 0) (w := 5) ((0#32) ++ a) imm).trans ((extract_low (0#32) a (by decide)).trans (extract_all a)))

@[simp] theorem off_tailB (a b : Reg) (off : BitVec 22) : BitVec.extractLsb' 0 22 (tailB a b off) = off :=
  ((extract_low ((0#32) ++ a ++ b) off (by decide)).trans (extract_all off))

@[simp] theorem tb_tailB (a b : Reg) (off : BitVec 22) : tb (tailB a b off) = b :=
  ((extract_high (n := 22) (k := 0) (w := 5) ((0#32) ++ a ++ b) off).trans ((extract_low ((0#32) ++ a) b (by decide)).trans (extract_all b)))

@[simp] theorem ta_tailB (a b : Reg) (off : BitVec 22) : ta (tailB a b off) = a :=
  ((extract_high (n := 22) (k := 5) (w := 5) ((0#32) ++ a ++ b) off).trans ((extract_high (n := 5) (k := 0) (w := 5) ((0#32) ++ a) b).trans ((extract_low (0#32) a (by decide)).trans (extract_all a))))

@[simp] theorem code_tailSys (a : Reg) (csr : BitVec 11) (code : BitVec 16) : BitVec.extractLsb' 0 16 (tailSys a csr code) = code :=
  ((extract_low ((0#32) ++ a ++ csr) code (by decide)).trans (extract_all code))

@[simp] theorem csr_tailSys (a : Reg) (csr : BitVec 11) (code : BitVec 16) : BitVec.extractLsb' 16 11 (tailSys a csr code) = csr :=
  ((extract_high (n := 16) (k := 0) (w := 11) ((0#32) ++ a ++ csr) code).trans ((extract_low ((0#32) ++ a) csr (by decide)).trans (extract_all csr)))

@[simp] theorem ta_tailSys (a : Reg) (csr : BitVec 11) (code : BitVec 16) : ta (tailSys a csr code) = a :=
  ((extract_high (n := 16) (k := 11) (w := 5) ((0#32) ++ a ++ csr) code).trans ((extract_high (n := 11) (k := 0) (w := 5) ((0#32) ++ a) csr).trans ((extract_low (0#32) a (by decide)).trans (extract_all a))))

@[simp] theorem rest_tailAmo (a b c : Reg) (scope : BitVec 3) (f : BitVec 6) : BitVec.extractLsb' 0 8 (tailAmo a b c scope f) = 0#8 :=
  ((extract_low ((0#32) ++ a ++ b ++ c ++ scope ++ f) (0#8) (by decide)).trans (extract_all (0#8)))

@[simp] theorem f_tailAmo (a b c : Reg) (scope : BitVec 3) (f : BitVec 6) : BitVec.extractLsb' 8 6 (tailAmo a b c scope f) = f :=
  ((extract_high (n := 8) (k := 0) (w := 6) ((0#32) ++ a ++ b ++ c ++ scope ++ f) (0#8)).trans ((extract_low ((0#32) ++ a ++ b ++ c ++ scope) f (by decide)).trans (extract_all f)))

@[simp] theorem scope_tailAmo (a b c : Reg) (scope : BitVec 3) (f : BitVec 6) : BitVec.extractLsb' 14 3 (tailAmo a b c scope f) = scope :=
  ((extract_high (n := 8) (k := 6) (w := 3) ((0#32) ++ a ++ b ++ c ++ scope ++ f) (0#8)).trans ((extract_high (n := 6) (k := 0) (w := 3) ((0#32) ++ a ++ b ++ c ++ scope) f).trans ((extract_low ((0#32) ++ a ++ b ++ c) scope (by decide)).trans (extract_all scope))))

@[simp] theorem tc_tailAmo (a b c : Reg) (scope : BitVec 3) (f : BitVec 6) : tc (tailAmo a b c scope f) = c :=
  ((extract_high (n := 8) (k := 9) (w := 5) ((0#32) ++ a ++ b ++ c ++ scope ++ f) (0#8)).trans ((extract_high (n := 6) (k := 3) (w := 5) ((0#32) ++ a ++ b ++ c ++ scope) f).trans ((extract_high (n := 3) (k := 0) (w := 5) ((0#32) ++ a ++ b ++ c) scope).trans ((extract_low ((0#32) ++ a ++ b) c (by decide)).trans (extract_all c)))))

@[simp] theorem tb_tailAmo (a b c : Reg) (scope : BitVec 3) (f : BitVec 6) : tb (tailAmo a b c scope f) = b :=
  ((extract_high (n := 8) (k := 14) (w := 5) ((0#32) ++ a ++ b ++ c ++ scope ++ f) (0#8)).trans ((extract_high (n := 6) (k := 8) (w := 5) ((0#32) ++ a ++ b ++ c ++ scope) f).trans ((extract_high (n := 3) (k := 5) (w := 5) ((0#32) ++ a ++ b ++ c) scope).trans ((extract_high (n := 5) (k := 0) (w := 5) ((0#32) ++ a ++ b) c).trans ((extract_low ((0#32) ++ a) b (by decide)).trans (extract_all b))))))

@[simp] theorem ta_tailAmo (a b c : Reg) (scope : BitVec 3) (f : BitVec 6) : ta (tailAmo a b c scope f) = a :=
  ((extract_high (n := 8) (k := 19) (w := 5) ((0#32) ++ a ++ b ++ c ++ scope ++ f) (0#8)).trans ((extract_high (n := 6) (k := 13) (w := 5) ((0#32) ++ a ++ b ++ c ++ scope) f).trans ((extract_high (n := 3) (k := 10) (w := 5) ((0#32) ++ a ++ b ++ c) scope).trans ((extract_high (n := 5) (k := 5) (w := 5) ((0#32) ++ a ++ b) c).trans ((extract_high (n := 5) (k := 0) (w := 5) ((0#32) ++ a) b).trans ((extract_low (0#32) a (by decide)).trans (extract_all a)))))))

@[simp] theorem rest_tailLoop (p st : Reg) (len : BitVec 6) : BitVec.extractLsb' 0 16 (tailLoop p st len) = 0#16 :=
  ((extract_low ((0#32) ++ p ++ st ++ len) (0#16) (by decide)).trans (extract_all (0#16)))

@[simp] theorem len_tailLoop (p st : Reg) (len : BitVec 6) : BitVec.extractLsb' 16 6 (tailLoop p st len) = len :=
  ((extract_high (n := 16) (k := 0) (w := 6) ((0#32) ++ p ++ st ++ len) (0#16)).trans ((extract_low ((0#32) ++ p ++ st) len (by decide)).trans (extract_all len)))

@[simp] theorem tb_tailLoop (p st : Reg) (len : BitVec 6) : tb (tailLoop p st len) = st :=
  ((extract_high (n := 16) (k := 6) (w := 5) ((0#32) ++ p ++ st ++ len) (0#16)).trans ((extract_high (n := 6) (k := 0) (w := 5) ((0#32) ++ p ++ st) len).trans ((extract_low ((0#32) ++ p) st (by decide)).trans (extract_all st))))

@[simp] theorem ta_tailLoop (p st : Reg) (len : BitVec 6) : ta (tailLoop p st len) = p :=
  ((extract_high (n := 16) (k := 11) (w := 5) ((0#32) ++ p ++ st ++ len) (0#16)).trans ((extract_high (n := 6) (k := 5) (w := 5) ((0#32) ++ p ++ st) len).trans ((extract_high (n := 5) (k := 0) (w := 5) ((0#32) ++ p) st).trans ((extract_low (0#32) p (by decide)).trans (extract_all p)))))

@[simp] theorem imm_tail32 (imm : BitVec 32) : BitVec.extractLsb' 0 32 (tail32 imm) = imm :=
  ((extract_low (0#32) imm (by decide)).trans (extract_all imm))

@[simp] theorem low_zero3 (n : BitVec 3) : BitVec.extractLsb' 0 3 (0#3 ++ n : BitVec 6) = n :=
  ((extract_low (0#3) n (by decide)).trans (extract_all n))

@[simp] theorem high_zero3 (n : BitVec 3) : BitVec.extractLsb' 3 3 (0#3 ++ n : BitVec 6) = 0#3 :=
  ((extract_high (n := 3) (k := 0) (w := 3) (0#3) n).trans (extract_all (0#3)))

@[simp] theorem low_zero4 (n : BitVec 2) : BitVec.extractLsb' 0 2 (0#4 ++ n : BitVec 6) = n :=
  ((extract_low (0#4) n (by decide)).trans (extract_all n))

@[simp] theorem high_zero4 (n : BitVec 2) : BitVec.extractLsb' 2 4 (0#4 ++ n : BitVec 6) = 0#4 :=
  ((extract_high (n := 2) (k := 0) (w := 4) (0#4) n).trans (extract_all (0#4)))

@[simp] theorem low_type (t : BitVec 4) : BitVec.extractLsb' 0 3 (t ++ 0#3 : BitVec 7) = 0#3 :=
  ((extract_low t (0#3) (by decide)).trans (extract_all (0#3)))

@[simp] theorem high_type (t : BitVec 4) : BitVec.extractLsb' 3 4 (t ++ 0#3 : BitVec 7) = t :=
  ((extract_high (n := 3) (k := 0) (w := 4) t (0#3)).trans (extract_all t))

@[simp] theorem low_zero1 (e : BitVec 5) : BitVec.extractLsb' 0 5 (0#1 ++ e : BitVec 6) = e :=
  ((extract_low (0#1) e (by decide)).trans (extract_all e))

@[simp] theorem high_zero1 (e : BitVec 5) : BitVec.extractLsb' 5 1 (0#1 ++ e : BitVec 6) = 0#1 :=
  ((extract_high (n := 5) (k := 0) (w := 1) (0#1) e).trans (extract_all (0#1)))

@[simp] theorem high_bool (b : Bool) : BitVec.extractLsb' 1 5 (0#5 ++ BitVec.ofBool b : BitVec 6) = 0#5 :=
  ((extract_high (n := 1) (k := 0) (w := 5) (0#5) (BitVec.ofBool b)).trans (extract_all (0#5)))

/-- The fields of a T32R head and tail. -/
@[simp] theorem vector_tailR (tl : BitVec 2) (op : BitVec 6) (d a b c : Reg) (x mr : BitVec 3) (mk : Bool) (f : BitVec 6)
    (y : BitVec 7) : vector (head tl op d x) (tailR a b c mk mr f y) = ⟨x, d, a, b, c, mk, mr, y⟩ := by
  simp [vector]

/-- The T32R tail of a vector instruction holds its fields. -/
@[simp] theorem vector_tailV (tl : BitVec 2) (op : BitVec 6) (o : V32) (f : BitVec 6) :
    vector (head tl op o.d o.x) (tailV o f) = o := by
  simp [tailV]

@[simp] theorem tf_tailV (o : V32) (f : BitVec 6) : tf (tailV o f) = f := by
  simp [tailV]

end Sys2Proof.Laws
end

