-- ==== Sys2Proof/Laws/Memory.lean ====
section
/-!
SUPPORT. Laws of memory: a byte reads back what was written and every other byte as before, and each operation keeps the
canonical form.
-/

namespace Sys2Proof.Machine.Laws

/-- The empty memory has the canonical form. -/
@[simp] theorem wf_nil : Memory.wf [] = true := rfl

/-- An entry list that starts higher has the form from any lower bound. -/
theorem memWfFrom_mono {lo hi : Nat} (h : lo ≤ hi) : ∀ {m : List Host.Cell}, memWfFrom hi m = true → memWfFrom lo m = true
  | [], _ => rfl
  | (a, b) :: r, w => by
    simp only [memWfFrom, Bool.and_eq_true, decide_eq_true_eq] at w ⊢
    exact ⟨⟨h.trans w.1.1, w.1.2⟩, w.2⟩

/-- Below its first entry a memory reads as zero. -/
theorem memGet_below {m : List Host.Cell} {lo k : Nat} (w : memWfFrom lo m = true) (h : k < lo) : memGet m k = 0#8 := by
  induction m generalizing lo with
  | nil => rfl
  | cons x r ih =>
    obtain ⟨a, b⟩ := x
    simp only [memWfFrom, Bool.and_eq_true, decide_eq_true_eq] at w
    rw [memGet, if_neg (by omega)]
    exact ih w.2 (by omega)

/-- One byte written keeps the canonical form from a bound that its address reaches. -/
theorem memWfFrom_memSet {m : List Host.Cell} {lo k : Nat} (v : Byte) (w : memWfFrom lo m = true) (h : lo ≤ k) :
    memWfFrom lo (memSet m k v) = true := by
  induction m generalizing lo with
  | nil => by_cases hv : v = 0#8 <;> simp [memSet, memWfFrom, hv, h]
  | cons x r ih =>
    obtain ⟨a, b⟩ := x
    have w0 := w
    simp only [memWfFrom, Bool.and_eq_true, decide_eq_true_eq] at w
    obtain ⟨⟨wa, wb⟩, wr⟩ := w
    unfold memSet
    split
    · split
      · exact memWfFrom_mono (by omega) wr
      · rename_i e hv; subst e
        simpa [memWfFrom, hv, h] using wr
    · split
      · split
        · exact w0
        · rename_i e hk hv
          simpa [memWfFrom, hv, h] using ⟨⟨by omega, by simpa using wb⟩, wr⟩
      · rename_i e hk
        simpa [memWfFrom] using ⟨⟨wa, by simpa using wb⟩, ih wr (by omega)⟩

/-- One byte written keeps the canonical form. -/
theorem wf_memSet {m : List Host.Cell} (k : Nat) (v : Byte) (w : Memory.wf m = true) : Memory.wf (memSet m k v) = true :=
  memWfFrom_memSet v w (Nat.zero_le _)

/-- Bytes written in a row keep the canonical form. -/
theorem wf_memPut {m : List Host.Cell} (a : Nat) (l : List Byte) (w : Memory.wf m = true) : Memory.wf (memPut m a l) = true := by
  induction l generalizing m a with
  | nil => exact w
  | cons b r ih => exact ih _ (wf_memSet a b w)

/-- Bytes written at given addresses keep the canonical form. -/
theorem wf_memPuts {m : List Host.Cell} (l : List (Nat × Byte)) (w : Memory.wf m = true) : Memory.wf (memPuts m l) = true := by
  induction l generalizing m with
  | nil => exact w
  | cons x r ih => exact ih (wf_memSet x.1 x.2 w)

/-- A doubleword written keeps the canonical form. -/
theorem wf_memPutWord {m : List Host.Cell} (a : Nat) (x : Word) (w : Memory.wf m = true) : Memory.wf (memPutWord m a x) = true :=
  wf_memPut _ _ w

/-- Entries taken out keep the canonical form from a bound. -/
theorem memWfFrom_filter (p : Host.Cell → Bool) {m : List Host.Cell} {lo : Nat} (w : memWfFrom lo m = true) :
    memWfFrom lo (m.filter p) = true := by
  induction m generalizing lo with
  | nil => rfl
  | cons x r ih =>
    obtain ⟨a, b⟩ := x
    simp only [memWfFrom, Bool.and_eq_true, decide_eq_true_eq] at w
    rw [List.filter_cons]
    split
    · simpa [memWfFrom] using ⟨⟨w.1.1, by simpa using w.1.2⟩, ih w.2⟩
    · exact memWfFrom_mono (by omega) (ih w.2)

/-- Entries taken out keep the canonical form. -/
theorem wf_filter (p : Host.Cell → Bool) {m : List Host.Cell} (w : Memory.wf m = true) : Memory.wf (m.filter p) = true :=
  memWfFrom_filter p w

/-- A byte reads back what was written, every other byte as before. -/
theorem memGet_memSet {m : List Host.Cell} {lo : Nat} (w : memWfFrom lo m = true) (k j : Nat) (v : Byte) :
    memGet (memSet m k v) j = if j = k then v else memGet m j := by
  induction m generalizing lo with
  | nil => by_cases hv : v = 0#8 <;> by_cases h : k = j <;> simp [memSet, memGet, hv, h, @eq_comm _ j k]
  | cons x r ih =>
    obtain ⟨a, b⟩ := x
    simp only [memWfFrom, Bool.and_eq_true, decide_eq_true_eq] at w
    obtain ⟨⟨wa, wb⟩, wr⟩ := w
    by_cases ha : a = k
    · subst ha
      by_cases hj : j = a
      · subst hj
        by_cases hv : v = 0#8
        · simp [memSet, hv, memGet_below wr (Nat.lt_succ_self j)]
        · simp [memSet, hv, memGet]
      · by_cases hv : v = 0#8 <;> simp [memSet, hv, memGet, hj, Ne.symm hj]
    · by_cases hk : k < a
      · by_cases hj : j = k
        · subst hj
          by_cases hv : v = 0#8
          · simp [memSet, ha, hk, hv, memGet, memGet_below wr (by omega : j < a + 1)]
          · simp [memSet, ha, hk, hv, memGet]
        · by_cases hv : v = 0#8 <;> simp [memSet, ha, hk, hv, memGet, hj, Ne.symm hj]
      · by_cases hj : a = j
        · subst hj; simp [memSet, ha, hk, memGet]
        · simp [memSet, ha, hk, memGet, hj, ih wr]

/-- Bytes written in a row leave every other byte as before. -/
theorem memGet_memPut_out {m : List Host.Cell} (w : Memory.wf m = true) (a : Nat) (l : List Byte) {j : Nat}
    (h : j < a ∨ a + l.length ≤ j) : memGet (memPut m a l) j = memGet m j := by
  induction l generalizing m a with
  | nil => rfl
  | cons b r ih =>
    simp only [List.length_cons] at h
    rw [memPut, ih (wf_memSet a b w) (a + 1) (by omega), memGet_memSet w, if_neg (by omega)]

/-- Bytes written in a row read back. -/
theorem memGet_memPut_in {m : List Host.Cell} (w : Memory.wf m = true) (a : Nat) (l : List Byte) {i : Nat} (h : i < l.length) :
    memGet (memPut m a l) (a + i) = l[i] := by
  induction l generalizing m a i with
  | nil => simp at h
  | cons b r ih =>
    rw [memPut]
    cases i with
    | zero => rw [memGet_memPut_out (wf_memSet a b w) _ _ (by omega), memGet_memSet w]; simp
    | succ n => rw [show a + (n + 1) = a + 1 + n by omega, ih (wf_memSet a b w) _ (by simpa using h)]; simp

/-- Bytes of a number have the length asked for. -/
@[simp] theorem leBytes_length (n x : Nat) : (leBytes n x).length = n := by
  induction n generalizing x with
  | zero => rfl
  | succ n ih => simp [leBytes, ih]

/-- A number read from its own bytes. -/
@[simp] theorem leNat_leBytes (n x : Nat) : leNat (leBytes n x) = x % 256 ^ n := by
  induction n generalizing x with
  | zero => simp [leBytes, leNat, Nat.mod_one]
  | succ n ih => rw [leBytes, leNat, ih, Nat.pow_succ', Nat.mod_mul]; simp

end Sys2Proof.Machine.Laws
end

