-- ==== Sys2Proof/Laws/State.lean ====
section
/-!
SUPPORT. Laws of State's updates: what each leaves alone (by rfl), and what reads back after it. No later proof needs to
unfold a record update.
-/

namespace Sys2Proof.Machine.Laws

/-! ### setCore -/

@[simp] theorem clusters_setCore (s : State) (g : CoreId) (c : Core) : (s.setCore g c).clusters = s.clusters := rfl
@[simp] theorem dies_setCore (s : State) (g : CoreId) (c : Core) : (s.setCore g c).dies = s.dies := rfl
@[simp] theorem pkgs_setCore (s : State) (g : CoreId) (c : Core) : (s.setCore g c).pkgs = s.pkgs := rfl
@[simp] theorem mem_setCore (s : State) (g : CoreId) (c : Core) : (s.setCore g c).mem = s.mem := rfl
@[simp] theorem elapsed_setCore (s : State) (g : CoreId) (c : Core) : (s.setCore g c).elapsed = s.elapsed := rfl
@[simp] theorem ids_setCore (s : State) (g : CoreId) (c : Core) : (s.setCore g c).ids = s.ids := rfl
@[simp] theorem focus_setCore (s : State) (g : CoreId) (c : Core) : (s.setCore g c).focus = s.focus := rfl
@[simp] theorem burst_setCore (s : State) (g : CoreId) (c : Core) : (s.setCore g c).burst = s.burst := rfl
@[simp] theorem agenda_setCore (s : State) (g : CoreId) (c : Core) : (s.setCore g c).agenda = s.agenda := rfl
@[simp] theorem flight_setCore (s : State) (g : CoreId) (c : Core) : (s.setCore g c).flight = s.flight := rfl
@[simp] theorem stalled_setCore (s : State) (g : CoreId) (c : Core) : (s.setCore g c).stalled = s.stalled := rfl
@[simp] theorem cluster_setCore (s : State) (g : CoreId) (c : Core) (m : Nat) : (s.setCore g c).cluster m = s.cluster m := rfl
@[simp] theorem die_setCore (s : State) (g : CoreId) (c : Core) (m : Nat) : (s.setCore g c).die m = s.die m := rfl
@[simp] theorem pkg_setCore (s : State) (g : CoreId) (c : Core) (m : Nat) : (s.setCore g c).pkg m = s.pkg m := rfl
@[simp] theorem tenant_setCore (s : State) (g : CoreId) (c : Core) (q u : Nat) : (s.setCore g c).tenant q u = s.tenant q u := rfl

/-! ### setCluster -/

@[simp] theorem cores_setCluster (s : State) (n : Nat) (c : Cluster) : (s.setCluster n c).cores = s.cores := rfl
@[simp] theorem dies_setCluster (s : State) (n : Nat) (c : Cluster) : (s.setCluster n c).dies = s.dies := rfl
@[simp] theorem pkgs_setCluster (s : State) (n : Nat) (c : Cluster) : (s.setCluster n c).pkgs = s.pkgs := rfl
@[simp] theorem mem_setCluster (s : State) (n : Nat) (c : Cluster) : (s.setCluster n c).mem = s.mem := rfl
@[simp] theorem elapsed_setCluster (s : State) (n : Nat) (c : Cluster) : (s.setCluster n c).elapsed = s.elapsed := rfl
@[simp] theorem ids_setCluster (s : State) (n : Nat) (c : Cluster) : (s.setCluster n c).ids = s.ids := rfl
@[simp] theorem focus_setCluster (s : State) (n : Nat) (c : Cluster) : (s.setCluster n c).focus = s.focus := rfl
@[simp] theorem burst_setCluster (s : State) (n : Nat) (c : Cluster) : (s.setCluster n c).burst = s.burst := rfl
@[simp] theorem agenda_setCluster (s : State) (n : Nat) (c : Cluster) : (s.setCluster n c).agenda = s.agenda := rfl
@[simp] theorem flight_setCluster (s : State) (n : Nat) (c : Cluster) : (s.setCluster n c).flight = s.flight := rfl
@[simp] theorem stalled_setCluster (s : State) (n : Nat) (c : Cluster) : (s.setCluster n c).stalled = s.stalled := rfl
@[simp] theorem core_setCluster (s : State) (n : Nat) (c : Cluster) (h : CoreId) : (s.setCluster n c).core h = s.core h := rfl
@[simp] theorem die_setCluster (s : State) (n : Nat) (c : Cluster) (m : Nat) : (s.setCluster n c).die m = s.die m := rfl
@[simp] theorem pkg_setCluster (s : State) (n : Nat) (c : Cluster) (m : Nat) : (s.setCluster n c).pkg m = s.pkg m := rfl
@[simp] theorem tenant_setCluster (s : State) (n : Nat) (c : Cluster) (q u : Nat) : (s.setCluster n c).tenant q u = s.tenant q u := rfl
@[simp] theorem cur_setCluster (s : State) (n : Nat) (c : Cluster) : (s.setCluster n c).cur = s.cur := rfl
@[simp] theorem co_setCluster (s : State) (n : Nat) (c : Cluster) : (s.setCluster n c).co = s.co := rfl
@[simp] theorem ext_setCluster (s : State) (n : Nat) (c : Cluster) : (s.setCluster n c).ext = s.ext := rfl
@[simp] theorem who_setCluster (s : State) (n : Nat) (c : Cluster) : (s.setCluster n c).who = s.who := rfl

/-! ### setDie -/

@[simp] theorem cores_setDie (s : State) (n : Nat) (d : Die) : (s.setDie n d).cores = s.cores := rfl
@[simp] theorem clusters_setDie (s : State) (n : Nat) (d : Die) : (s.setDie n d).clusters = s.clusters := rfl
@[simp] theorem pkgs_setDie (s : State) (n : Nat) (d : Die) : (s.setDie n d).pkgs = s.pkgs := rfl
@[simp] theorem mem_setDie (s : State) (n : Nat) (d : Die) : (s.setDie n d).mem = s.mem := rfl
@[simp] theorem elapsed_setDie (s : State) (n : Nat) (d : Die) : (s.setDie n d).elapsed = s.elapsed := rfl
@[simp] theorem ids_setDie (s : State) (n : Nat) (d : Die) : (s.setDie n d).ids = s.ids := rfl
@[simp] theorem focus_setDie (s : State) (n : Nat) (d : Die) : (s.setDie n d).focus = s.focus := rfl
@[simp] theorem burst_setDie (s : State) (n : Nat) (d : Die) : (s.setDie n d).burst = s.burst := rfl
@[simp] theorem agenda_setDie (s : State) (n : Nat) (d : Die) : (s.setDie n d).agenda = s.agenda := rfl
@[simp] theorem flight_setDie (s : State) (n : Nat) (d : Die) : (s.setDie n d).flight = s.flight := rfl
@[simp] theorem stalled_setDie (s : State) (n : Nat) (d : Die) : (s.setDie n d).stalled = s.stalled := rfl
@[simp] theorem core_setDie (s : State) (n : Nat) (d : Die) (h : CoreId) : (s.setDie n d).core h = s.core h := rfl
@[simp] theorem cluster_setDie (s : State) (n : Nat) (d : Die) (m : Nat) : (s.setDie n d).cluster m = s.cluster m := rfl
@[simp] theorem pkg_setDie (s : State) (n : Nat) (d : Die) (m : Nat) : (s.setDie n d).pkg m = s.pkg m := rfl
@[simp] theorem tenant_setDie (s : State) (n : Nat) (d : Die) (q u : Nat) : (s.setDie n d).tenant q u = s.tenant q u := rfl
@[simp] theorem cur_setDie (s : State) (n : Nat) (d : Die) : (s.setDie n d).cur = s.cur := rfl
@[simp] theorem co_setDie (s : State) (n : Nat) (d : Die) : (s.setDie n d).co = s.co := rfl
@[simp] theorem ext_setDie (s : State) (n : Nat) (d : Die) : (s.setDie n d).ext = s.ext := rfl
@[simp] theorem who_setDie (s : State) (n : Nat) (d : Die) : (s.setDie n d).who = s.who := rfl

/-! ### setPkg -/

@[simp] theorem cores_setPkg (s : State) (n : Nat) (p : Pkg) : (s.setPkg n p).cores = s.cores := rfl
@[simp] theorem clusters_setPkg (s : State) (n : Nat) (p : Pkg) : (s.setPkg n p).clusters = s.clusters := rfl
@[simp] theorem dies_setPkg (s : State) (n : Nat) (p : Pkg) : (s.setPkg n p).dies = s.dies := rfl
@[simp] theorem mem_setPkg (s : State) (n : Nat) (p : Pkg) : (s.setPkg n p).mem = s.mem := rfl
@[simp] theorem elapsed_setPkg (s : State) (n : Nat) (p : Pkg) : (s.setPkg n p).elapsed = s.elapsed := rfl
@[simp] theorem ids_setPkg (s : State) (n : Nat) (p : Pkg) : (s.setPkg n p).ids = s.ids := rfl
@[simp] theorem focus_setPkg (s : State) (n : Nat) (p : Pkg) : (s.setPkg n p).focus = s.focus := rfl
@[simp] theorem burst_setPkg (s : State) (n : Nat) (p : Pkg) : (s.setPkg n p).burst = s.burst := rfl
@[simp] theorem agenda_setPkg (s : State) (n : Nat) (p : Pkg) : (s.setPkg n p).agenda = s.agenda := rfl
@[simp] theorem flight_setPkg (s : State) (n : Nat) (p : Pkg) : (s.setPkg n p).flight = s.flight := rfl
@[simp] theorem stalled_setPkg (s : State) (n : Nat) (p : Pkg) : (s.setPkg n p).stalled = s.stalled := rfl
@[simp] theorem core_setPkg (s : State) (n : Nat) (p : Pkg) (h : CoreId) : (s.setPkg n p).core h = s.core h := rfl
@[simp] theorem cluster_setPkg (s : State) (n : Nat) (p : Pkg) (m : Nat) : (s.setPkg n p).cluster m = s.cluster m := rfl
@[simp] theorem die_setPkg (s : State) (n : Nat) (p : Pkg) (m : Nat) : (s.setPkg n p).die m = s.die m := rfl
@[simp] theorem cur_setPkg (s : State) (n : Nat) (p : Pkg) : (s.setPkg n p).cur = s.cur := rfl
@[simp] theorem co_setPkg (s : State) (n : Nat) (p : Pkg) : (s.setPkg n p).co = s.co := rfl
@[simp] theorem ext_setPkg (s : State) (n : Nat) (p : Pkg) : (s.setPkg n p).ext = s.ext := rfl
@[simp] theorem who_setPkg (s : State) (n : Nat) (p : Pkg) : (s.setPkg n p).who = s.who := rfl

/-! ### setTenant -/

@[simp] theorem cores_setTenant (s : State) (p t : Nat) (x : Tenant) : (s.setTenant p t x).cores = s.cores := rfl
@[simp] theorem clusters_setTenant (s : State) (p t : Nat) (x : Tenant) : (s.setTenant p t x).clusters = s.clusters := rfl
@[simp] theorem dies_setTenant (s : State) (p t : Nat) (x : Tenant) : (s.setTenant p t x).dies = s.dies := rfl
@[simp] theorem mem_setTenant (s : State) (p t : Nat) (x : Tenant) : (s.setTenant p t x).mem = s.mem := rfl
@[simp] theorem elapsed_setTenant (s : State) (p t : Nat) (x : Tenant) : (s.setTenant p t x).elapsed = s.elapsed := rfl
@[simp] theorem ids_setTenant (s : State) (p t : Nat) (x : Tenant) : (s.setTenant p t x).ids = s.ids := rfl
@[simp] theorem focus_setTenant (s : State) (p t : Nat) (x : Tenant) : (s.setTenant p t x).focus = s.focus := rfl
@[simp] theorem burst_setTenant (s : State) (p t : Nat) (x : Tenant) : (s.setTenant p t x).burst = s.burst := rfl
@[simp] theorem agenda_setTenant (s : State) (p t : Nat) (x : Tenant) : (s.setTenant p t x).agenda = s.agenda := rfl
@[simp] theorem flight_setTenant (s : State) (p t : Nat) (x : Tenant) : (s.setTenant p t x).flight = s.flight := rfl
@[simp] theorem stalled_setTenant (s : State) (p t : Nat) (x : Tenant) : (s.setTenant p t x).stalled = s.stalled := rfl
@[simp] theorem core_setTenant (s : State) (p t : Nat) (x : Tenant) (h : CoreId) : (s.setTenant p t x).core h = s.core h := rfl
@[simp] theorem cluster_setTenant (s : State) (p t : Nat) (x : Tenant) (m : Nat) : (s.setTenant p t x).cluster m = s.cluster m := rfl
@[simp] theorem die_setTenant (s : State) (p t : Nat) (x : Tenant) (m : Nat) : (s.setTenant p t x).die m = s.die m := rfl
@[simp] theorem cur_setTenant (s : State) (p t : Nat) (x : Tenant) : (s.setTenant p t x).cur = s.cur := rfl
@[simp] theorem co_setTenant (s : State) (p t : Nat) (x : Tenant) : (s.setTenant p t x).co = s.co := rfl
@[simp] theorem ext_setTenant (s : State) (p t : Nat) (x : Tenant) : (s.setTenant p t x).ext = s.ext := rfl
@[simp] theorem who_setTenant (s : State) (p t : Nat) (x : Tenant) : (s.setTenant p t x).who = s.who := rfl

/-! ### setCur -/

@[simp] theorem clusters_setCur (s : State) (c : Core) : (s.setCur c).clusters = s.clusters := rfl
@[simp] theorem dies_setCur (s : State) (c : Core) : (s.setCur c).dies = s.dies := rfl
@[simp] theorem pkgs_setCur (s : State) (c : Core) : (s.setCur c).pkgs = s.pkgs := rfl
@[simp] theorem mem_setCur (s : State) (c : Core) : (s.setCur c).mem = s.mem := rfl
@[simp] theorem elapsed_setCur (s : State) (c : Core) : (s.setCur c).elapsed = s.elapsed := rfl
@[simp] theorem ids_setCur (s : State) (c : Core) : (s.setCur c).ids = s.ids := rfl
@[simp] theorem focus_setCur (s : State) (c : Core) : (s.setCur c).focus = s.focus := rfl
@[simp] theorem burst_setCur (s : State) (c : Core) : (s.setCur c).burst = s.burst := rfl
@[simp] theorem agenda_setCur (s : State) (c : Core) : (s.setCur c).agenda = s.agenda := rfl
@[simp] theorem flight_setCur (s : State) (c : Core) : (s.setCur c).flight = s.flight := rfl
@[simp] theorem stalled_setCur (s : State) (c : Core) : (s.setCur c).stalled = s.stalled := rfl
@[simp] theorem cluster_setCur (s : State) (c : Core) (m : Nat) : (s.setCur c).cluster m = s.cluster m := rfl
@[simp] theorem die_setCur (s : State) (c : Core) (m : Nat) : (s.setCur c).die m = s.die m := rfl
@[simp] theorem pkg_setCur (s : State) (c : Core) (m : Nat) : (s.setCur c).pkg m = s.pkg m := rfl
@[simp] theorem tenant_setCur (s : State) (c : Core) (q u : Nat) : (s.setCur c).tenant q u = s.tenant q u := rfl

/-! ### setCo -/

@[simp] theorem clusters_setCo (s : State) (c : Co) : (s.setCo c).clusters = s.clusters := rfl
@[simp] theorem dies_setCo (s : State) (c : Co) : (s.setCo c).dies = s.dies := rfl
@[simp] theorem pkgs_setCo (s : State) (c : Co) : (s.setCo c).pkgs = s.pkgs := rfl
@[simp] theorem mem_setCo (s : State) (c : Co) : (s.setCo c).mem = s.mem := rfl
@[simp] theorem elapsed_setCo (s : State) (c : Co) : (s.setCo c).elapsed = s.elapsed := rfl
@[simp] theorem ids_setCo (s : State) (c : Co) : (s.setCo c).ids = s.ids := rfl
@[simp] theorem focus_setCo (s : State) (c : Co) : (s.setCo c).focus = s.focus := rfl
@[simp] theorem burst_setCo (s : State) (c : Co) : (s.setCo c).burst = s.burst := rfl
@[simp] theorem agenda_setCo (s : State) (c : Co) : (s.setCo c).agenda = s.agenda := rfl
@[simp] theorem flight_setCo (s : State) (c : Co) : (s.setCo c).flight = s.flight := rfl
@[simp] theorem stalled_setCo (s : State) (c : Co) : (s.setCo c).stalled = s.stalled := rfl
@[simp] theorem cluster_setCo (s : State) (c : Co) (m : Nat) : (s.setCo c).cluster m = s.cluster m := rfl
@[simp] theorem die_setCo (s : State) (c : Co) (m : Nat) : (s.setCo c).die m = s.die m := rfl
@[simp] theorem pkg_setCo (s : State) (c : Co) (m : Nat) : (s.setCo c).pkg m = s.pkg m := rfl
@[simp] theorem tenant_setCo (s : State) (c : Co) (q u : Nat) : (s.setCo c).tenant q u = s.tenant q u := rfl

/-! ### setExt -/

@[simp] theorem clusters_setExt (s : State) (e : Ext) : (s.setExt e).clusters = s.clusters := rfl
@[simp] theorem dies_setExt (s : State) (e : Ext) : (s.setExt e).dies = s.dies := rfl
@[simp] theorem pkgs_setExt (s : State) (e : Ext) : (s.setExt e).pkgs = s.pkgs := rfl
@[simp] theorem mem_setExt (s : State) (e : Ext) : (s.setExt e).mem = s.mem := rfl
@[simp] theorem elapsed_setExt (s : State) (e : Ext) : (s.setExt e).elapsed = s.elapsed := rfl
@[simp] theorem ids_setExt (s : State) (e : Ext) : (s.setExt e).ids = s.ids := rfl
@[simp] theorem focus_setExt (s : State) (e : Ext) : (s.setExt e).focus = s.focus := rfl
@[simp] theorem burst_setExt (s : State) (e : Ext) : (s.setExt e).burst = s.burst := rfl
@[simp] theorem agenda_setExt (s : State) (e : Ext) : (s.setExt e).agenda = s.agenda := rfl
@[simp] theorem flight_setExt (s : State) (e : Ext) : (s.setExt e).flight = s.flight := rfl
@[simp] theorem stalled_setExt (s : State) (e : Ext) : (s.setExt e).stalled = s.stalled := rfl
@[simp] theorem cluster_setExt (s : State) (e : Ext) (m : Nat) : (s.setExt e).cluster m = s.cluster m := rfl
@[simp] theorem die_setExt (s : State) (e : Ext) (m : Nat) : (s.setExt e).die m = s.die m := rfl
@[simp] theorem pkg_setExt (s : State) (e : Ext) (m : Nat) : (s.setExt e).pkg m = s.pkg m := rfl
@[simp] theorem tenant_setExt (s : State) (e : Ext) (q u : Nat) : (s.setExt e).tenant q u = s.tenant q u := rfl

/-! ### setChunk -/

@[simp] theorem clusters_setChunk (s : State) (k : Chunk) : (s.setChunk k).clusters = s.clusters := rfl
@[simp] theorem dies_setChunk (s : State) (k : Chunk) : (s.setChunk k).dies = s.dies := rfl
@[simp] theorem pkgs_setChunk (s : State) (k : Chunk) : (s.setChunk k).pkgs = s.pkgs := rfl
@[simp] theorem mem_setChunk (s : State) (k : Chunk) : (s.setChunk k).mem = s.mem := rfl
@[simp] theorem elapsed_setChunk (s : State) (k : Chunk) : (s.setChunk k).elapsed = s.elapsed := rfl
@[simp] theorem ids_setChunk (s : State) (k : Chunk) : (s.setChunk k).ids = s.ids := rfl
@[simp] theorem focus_setChunk (s : State) (k : Chunk) : (s.setChunk k).focus = s.focus := rfl
@[simp] theorem burst_setChunk (s : State) (k : Chunk) : (s.setChunk k).burst = s.burst := rfl
@[simp] theorem agenda_setChunk (s : State) (k : Chunk) : (s.setChunk k).agenda = s.agenda := rfl
@[simp] theorem flight_setChunk (s : State) (k : Chunk) : (s.setChunk k).flight = s.flight := rfl
@[simp] theorem stalled_setChunk (s : State) (k : Chunk) : (s.setChunk k).stalled = s.stalled := rfl
@[simp] theorem cluster_setChunk (s : State) (k : Chunk) (m : Nat) : (s.setChunk k).cluster m = s.cluster m := rfl
@[simp] theorem die_setChunk (s : State) (k : Chunk) (m : Nat) : (s.setChunk k).die m = s.die m := rfl
@[simp] theorem pkg_setChunk (s : State) (k : Chunk) (m : Nat) : (s.setChunk k).pkg m = s.pkg m := rfl
@[simp] theorem tenant_setChunk (s : State) (k : Chunk) (q u : Nat) : (s.setChunk k).tenant q u = s.tenant q u := rfl

/-! ### wr -/

@[simp] theorem clusters_wr (s : State) (d : Reg) (v : Word) : (s.wr d v).clusters = s.clusters := rfl
@[simp] theorem dies_wr (s : State) (d : Reg) (v : Word) : (s.wr d v).dies = s.dies := rfl
@[simp] theorem pkgs_wr (s : State) (d : Reg) (v : Word) : (s.wr d v).pkgs = s.pkgs := rfl
@[simp] theorem mem_wr (s : State) (d : Reg) (v : Word) : (s.wr d v).mem = s.mem := rfl
@[simp] theorem elapsed_wr (s : State) (d : Reg) (v : Word) : (s.wr d v).elapsed = s.elapsed := rfl
@[simp] theorem ids_wr (s : State) (d : Reg) (v : Word) : (s.wr d v).ids = s.ids := rfl
@[simp] theorem focus_wr (s : State) (d : Reg) (v : Word) : (s.wr d v).focus = s.focus := rfl
@[simp] theorem burst_wr (s : State) (d : Reg) (v : Word) : (s.wr d v).burst = s.burst := rfl
@[simp] theorem agenda_wr (s : State) (d : Reg) (v : Word) : (s.wr d v).agenda = s.agenda := rfl
@[simp] theorem flight_wr (s : State) (d : Reg) (v : Word) : (s.wr d v).flight = s.flight := rfl
@[simp] theorem stalled_wr (s : State) (d : Reg) (v : Word) : (s.wr d v).stalled = s.stalled := rfl
@[simp] theorem cluster_wr (s : State) (d : Reg) (v : Word) (m : Nat) : (s.wr d v).cluster m = s.cluster m := rfl
@[simp] theorem die_wr (s : State) (d : Reg) (v : Word) (m : Nat) : (s.wr d v).die m = s.die m := rfl
@[simp] theorem pkg_wr (s : State) (d : Reg) (v : Word) (m : Nat) : (s.wr d v).pkg m = s.pkg m := rfl
@[simp] theorem tenant_wr (s : State) (d : Reg) (v : Word) (q u : Nat) : (s.wr d v).tenant q u = s.tenant q u := rfl

/-! ### retire -/

@[simp] theorem clusters_retire (s : State) : s.retire.clusters = s.clusters := rfl
@[simp] theorem dies_retire (s : State) : s.retire.dies = s.dies := rfl
@[simp] theorem pkgs_retire (s : State) : s.retire.pkgs = s.pkgs := rfl
@[simp] theorem mem_retire (s : State) : s.retire.mem = s.mem := rfl
@[simp] theorem elapsed_retire (s : State) : s.retire.elapsed = s.elapsed := rfl
@[simp] theorem ids_retire (s : State) : s.retire.ids = s.ids := rfl
@[simp] theorem focus_retire (s : State) : s.retire.focus = s.focus := rfl
@[simp] theorem burst_retire (s : State) : s.retire.burst = s.burst := rfl
@[simp] theorem agenda_retire (s : State) : s.retire.agenda = s.agenda := rfl
@[simp] theorem flight_retire (s : State) : s.retire.flight = s.flight := rfl
@[simp] theorem stalled_retire (s : State) : s.retire.stalled = s.stalled := rfl
@[simp] theorem cluster_retire (s : State) (m : Nat) : s.retire.cluster m = s.cluster m := rfl
@[simp] theorem die_retire (s : State) (m : Nat) : s.retire.die m = s.die m := rfl
@[simp] theorem pkg_retire (s : State) (m : Nat) : s.retire.pkg m = s.pkg m := rfl
@[simp] theorem tenant_retire (s : State) (q u : Nat) : s.retire.tenant q u = s.tenant q u := rfl

/-! ### jump -/

@[simp] theorem clusters_jump (s : State) (a : Word) : (s.jump a).clusters = s.clusters := rfl
@[simp] theorem dies_jump (s : State) (a : Word) : (s.jump a).dies = s.dies := rfl
@[simp] theorem pkgs_jump (s : State) (a : Word) : (s.jump a).pkgs = s.pkgs := rfl
@[simp] theorem mem_jump (s : State) (a : Word) : (s.jump a).mem = s.mem := rfl
@[simp] theorem elapsed_jump (s : State) (a : Word) : (s.jump a).elapsed = s.elapsed := rfl
@[simp] theorem ids_jump (s : State) (a : Word) : (s.jump a).ids = s.ids := rfl
@[simp] theorem focus_jump (s : State) (a : Word) : (s.jump a).focus = s.focus := rfl
@[simp] theorem burst_jump (s : State) (a : Word) : (s.jump a).burst = s.burst := rfl
@[simp] theorem agenda_jump (s : State) (a : Word) : (s.jump a).agenda = s.agenda := rfl
@[simp] theorem flight_jump (s : State) (a : Word) : (s.jump a).flight = s.flight := rfl
@[simp] theorem stalled_jump (s : State) (a : Word) : (s.jump a).stalled = s.stalled := rfl
@[simp] theorem cluster_jump (s : State) (a : Word) (m : Nat) : (s.jump a).cluster m = s.cluster m := rfl
@[simp] theorem die_jump (s : State) (a : Word) (m : Nat) : (s.jump a).die m = s.die m := rfl
@[simp] theorem pkg_jump (s : State) (a : Word) (m : Nat) : (s.jump a).pkg m = s.pkg m := rfl
@[simp] theorem tenant_jump (s : State) (a : Word) (q u : Nat) : (s.jump a).tenant q u = s.tenant q u := rfl

/-! ### post -/

@[simp] theorem cores_post (s : State) (e : Event) : (s.post e).cores = s.cores := rfl
@[simp] theorem clusters_post (s : State) (e : Event) : (s.post e).clusters = s.clusters := rfl
@[simp] theorem dies_post (s : State) (e : Event) : (s.post e).dies = s.dies := rfl
@[simp] theorem pkgs_post (s : State) (e : Event) : (s.post e).pkgs = s.pkgs := rfl
@[simp] theorem mem_post (s : State) (e : Event) : (s.post e).mem = s.mem := rfl
@[simp] theorem elapsed_post (s : State) (e : Event) : (s.post e).elapsed = s.elapsed := rfl
@[simp] theorem ids_post (s : State) (e : Event) : (s.post e).ids = s.ids := rfl
@[simp] theorem focus_post (s : State) (e : Event) : (s.post e).focus = s.focus := rfl
@[simp] theorem burst_post (s : State) (e : Event) : (s.post e).burst = s.burst := rfl
@[simp] theorem agenda_post (s : State) (e : Event) : (s.post e).agenda = s.agenda := rfl
@[simp] theorem stalled_post (s : State) (e : Event) : (s.post e).stalled = s.stalled := rfl
@[simp] theorem core_post (s : State) (e : Event) (h : CoreId) : (s.post e).core h = s.core h := rfl
@[simp] theorem cluster_post (s : State) (e : Event) (m : Nat) : (s.post e).cluster m = s.cluster m := rfl
@[simp] theorem die_post (s : State) (e : Event) (m : Nat) : (s.post e).die m = s.die m := rfl
@[simp] theorem pkg_post (s : State) (e : Event) (m : Nat) : (s.post e).pkg m = s.pkg m := rfl
@[simp] theorem tenant_post (s : State) (e : Event) (q u : Nat) : (s.post e).tenant q u = s.tenant q u := rfl
@[simp] theorem cur_post (s : State) (e : Event) : (s.post e).cur = s.cur := rfl
@[simp] theorem co_post (s : State) (e : Event) : (s.post e).co = s.co := rfl
@[simp] theorem ext_post (s : State) (e : Event) : (s.post e).ext = s.ext := rfl
@[simp] theorem who_post (s : State) (e : Event) : (s.post e).who = s.who := rfl

/-! ### posts -/

@[simp] theorem cores_posts (s : State) (l : List Event) : (s.posts l).cores = s.cores := rfl
@[simp] theorem clusters_posts (s : State) (l : List Event) : (s.posts l).clusters = s.clusters := rfl
@[simp] theorem dies_posts (s : State) (l : List Event) : (s.posts l).dies = s.dies := rfl
@[simp] theorem pkgs_posts (s : State) (l : List Event) : (s.posts l).pkgs = s.pkgs := rfl
@[simp] theorem mem_posts (s : State) (l : List Event) : (s.posts l).mem = s.mem := rfl
@[simp] theorem elapsed_posts (s : State) (l : List Event) : (s.posts l).elapsed = s.elapsed := rfl
@[simp] theorem ids_posts (s : State) (l : List Event) : (s.posts l).ids = s.ids := rfl
@[simp] theorem focus_posts (s : State) (l : List Event) : (s.posts l).focus = s.focus := rfl
@[simp] theorem burst_posts (s : State) (l : List Event) : (s.posts l).burst = s.burst := rfl
@[simp] theorem agenda_posts (s : State) (l : List Event) : (s.posts l).agenda = s.agenda := rfl
@[simp] theorem stalled_posts (s : State) (l : List Event) : (s.posts l).stalled = s.stalled := rfl
@[simp] theorem core_posts (s : State) (l : List Event) (h : CoreId) : (s.posts l).core h = s.core h := rfl
@[simp] theorem cluster_posts (s : State) (l : List Event) (m : Nat) : (s.posts l).cluster m = s.cluster m := rfl
@[simp] theorem die_posts (s : State) (l : List Event) (m : Nat) : (s.posts l).die m = s.die m := rfl
@[simp] theorem pkg_posts (s : State) (l : List Event) (m : Nat) : (s.posts l).pkg m = s.pkg m := rfl
@[simp] theorem tenant_posts (s : State) (l : List Event) (q u : Nat) : (s.posts l).tenant q u = s.tenant q u := rfl
@[simp] theorem cur_posts (s : State) (l : List Event) : (s.posts l).cur = s.cur := rfl
@[simp] theorem co_posts (s : State) (l : List Event) : (s.posts l).co = s.co := rfl
@[simp] theorem ext_posts (s : State) (l : List Event) : (s.posts l).ext = s.ext := rfl
@[simp] theorem who_posts (s : State) (l : List Event) : (s.posts l).who = s.who := rfl

/-! ### soon -/

@[simp] theorem cores_soon (s : State) (e : Event) : (s.soon e).cores = s.cores := rfl
@[simp] theorem clusters_soon (s : State) (e : Event) : (s.soon e).clusters = s.clusters := rfl
@[simp] theorem dies_soon (s : State) (e : Event) : (s.soon e).dies = s.dies := rfl
@[simp] theorem pkgs_soon (s : State) (e : Event) : (s.soon e).pkgs = s.pkgs := rfl
@[simp] theorem mem_soon (s : State) (e : Event) : (s.soon e).mem = s.mem := rfl
@[simp] theorem elapsed_soon (s : State) (e : Event) : (s.soon e).elapsed = s.elapsed := rfl
@[simp] theorem ids_soon (s : State) (e : Event) : (s.soon e).ids = s.ids := rfl
@[simp] theorem focus_soon (s : State) (e : Event) : (s.soon e).focus = s.focus := rfl
@[simp] theorem burst_soon (s : State) (e : Event) : (s.soon e).burst = s.burst := rfl
@[simp] theorem flight_soon (s : State) (e : Event) : (s.soon e).flight = s.flight := rfl
@[simp] theorem stalled_soon (s : State) (e : Event) : (s.soon e).stalled = s.stalled := rfl
@[simp] theorem core_soon (s : State) (e : Event) (h : CoreId) : (s.soon e).core h = s.core h := rfl
@[simp] theorem cluster_soon (s : State) (e : Event) (m : Nat) : (s.soon e).cluster m = s.cluster m := rfl
@[simp] theorem die_soon (s : State) (e : Event) (m : Nat) : (s.soon e).die m = s.die m := rfl
@[simp] theorem pkg_soon (s : State) (e : Event) (m : Nat) : (s.soon e).pkg m = s.pkg m := rfl
@[simp] theorem tenant_soon (s : State) (e : Event) (q u : Nat) : (s.soon e).tenant q u = s.tenant q u := rfl
@[simp] theorem cur_soon (s : State) (e : Event) : (s.soon e).cur = s.cur := rfl
@[simp] theorem co_soon (s : State) (e : Event) : (s.soon e).co = s.co := rfl
@[simp] theorem ext_soon (s : State) (e : Event) : (s.soon e).ext = s.ext := rfl
@[simp] theorem who_soon (s : State) (e : Event) : (s.soon e).who = s.who := rfl

/-! ### stall -/

@[simp] theorem cores_stall (s : State) : s.stall.cores = s.cores := rfl
@[simp] theorem clusters_stall (s : State) : s.stall.clusters = s.clusters := rfl
@[simp] theorem dies_stall (s : State) : s.stall.dies = s.dies := rfl
@[simp] theorem pkgs_stall (s : State) : s.stall.pkgs = s.pkgs := rfl
@[simp] theorem mem_stall (s : State) : s.stall.mem = s.mem := rfl
@[simp] theorem elapsed_stall (s : State) : s.stall.elapsed = s.elapsed := rfl
@[simp] theorem ids_stall (s : State) : s.stall.ids = s.ids := rfl
@[simp] theorem focus_stall (s : State) : s.stall.focus = s.focus := rfl
@[simp] theorem burst_stall (s : State) : s.stall.burst = s.burst := rfl
@[simp] theorem agenda_stall (s : State) : s.stall.agenda = s.agenda := rfl
@[simp] theorem flight_stall (s : State) : s.stall.flight = s.flight := rfl
@[simp] theorem core_stall (s : State) (h : CoreId) : s.stall.core h = s.core h := rfl
@[simp] theorem cluster_stall (s : State) (m : Nat) : s.stall.cluster m = s.cluster m := rfl
@[simp] theorem die_stall (s : State) (m : Nat) : s.stall.die m = s.die m := rfl
@[simp] theorem pkg_stall (s : State) (m : Nat) : s.stall.pkg m = s.pkg m := rfl
@[simp] theorem tenant_stall (s : State) (q u : Nat) : s.stall.tenant q u = s.tenant q u := rfl
@[simp] theorem cur_stall (s : State) : s.stall.cur = s.cur := rfl
@[simp] theorem co_stall (s : State) : s.stall.co = s.co := rfl
@[simp] theorem ext_stall (s : State) : s.stall.ext = s.ext := rfl
@[simp] theorem who_stall (s : State) : s.stall.who = s.who := rfl

/-! ### Tables -/

/-- A table reads back what was set, and every other key as before. -/
theorem Tab.get_set {α : Type} (d : α) (l : List (Nat × α)) (k k' : Nat) (v : α) :
    Tab.get d (Tab.set l k v) k' = if k' = k then v else Tab.get d l k' := by
  induction l with
  | nil => simp only [Tab.set, Tab.get, eq_comm]
  | cons x r ih =>
    obtain ⟨a, y⟩ := x
    by_cases h : a = k
    · subst h
      by_cases h' : k' = a <;> simp [Tab.set, Tab.get, h', eq_comm]
    · by_cases h' : k' = k
      · subst h'; simp only [Tab.set, h, if_false]; split <;> simp [Tab.get, h, ih]
      · simp only [Tab.set, h, if_false]; split <;> simp [Tab.get, ih, h', Ne.symm h']

@[simp] theorem core_setCore (s : State) (g h : CoreId) (c : Core) :
    (s.setCore g c).core h = if h = g then c else s.core h := Tab.get_set _ _ _ _ _

@[simp] theorem cluster_setCluster (s : State) (n m : Nat) (c : Cluster) :
    (s.setCluster n c).cluster m = if m = n then c else s.cluster m := Tab.get_set _ _ _ _ _

@[simp] theorem die_setDie (s : State) (n m : Nat) (d : Die) :
    (s.setDie n d).die m = if m = n then d else s.die m := Tab.get_set _ _ _ _ _

@[simp] theorem pkg_setPkg (s : State) (n m : Nat) (p : Pkg) :
    (s.setPkg n p).pkg m = if m = n then p else s.pkg m := Tab.get_set _ _ _ _ _

@[simp] theorem slot_setSlot (c : Core) (n m : Nat) (x : Slot) :
    (c.setSlot n x).slot m = if m = n then x else c.slot m := Tab.get_set _ _ _ _ _

@[simp] theorem tenant_setTenant (s : State) (p t : Nat) (x : Tenant) : (s.setTenant p t x).tenant p t = x := by
  simp [State.tenant, State.setTenant, Tab.get_set]

/-! ### The core in focus -/

@[simp] theorem cur_setCur (s : State) (c : Core) : (s.setCur c).cur = c := by simp [State.cur, State.setCur, State.setCore, State.core, Tab.get_set]
@[simp] theorem core_focus (s : State) : s.core s.focus = s.cur := rfl
@[simp] theorem cur_setCo (s : State) (c : Co) : (s.setCo c).cur = { s.cur with co := c } := by simp [State.setCo]
@[simp] theorem co_setCo (s : State) (c : Co) : (s.setCo c).co = c := by simp [State.co]
@[simp] theorem co_setCur (s : State) (c : Core) : (s.setCur c).co = c.co := by simp [State.co]
@[simp] theorem ext_setCur (s : State) (c : Core) : (s.setCur c).ext = c.ext := by simp [State.ext]
@[simp] theorem ext_setCo (s : State) (c : Co) : (s.setCo c).ext = s.ext := by simp [State.ext]
@[simp] theorem cur_setExt (s : State) (e : Ext) : (s.setExt e).cur = { s.cur with ext := e } := by simp [State.setExt]
@[simp] theorem ext_setExt (s : State) (e : Ext) : (s.setExt e).ext = e := by simp [State.ext]
@[simp] theorem co_setExt (s : State) (e : Ext) : (s.setExt e).co = s.co := by simp [State.co]
@[simp] theorem cur_setChunk (s : State) (k : Chunk) : (s.setChunk k).cur = { s.cur with chunk := k } := by simp [State.setChunk]
@[simp] theorem co_setChunk (s : State) (k : Chunk) : (s.setChunk k).co = s.co := by simp [State.co]
@[simp] theorem ext_setChunk (s : State) (k : Chunk) : (s.setChunk k).ext = s.ext := by simp [State.ext]
@[simp] theorem cur_wr (s : State) (d : Reg) (v : Word) : (s.wr d v).cur = { s.cur with co := s.co.wr d v } := by simp [State.wr]
@[simp] theorem co_wr (s : State) (d : Reg) (v : Word) : (s.wr d v).co = s.co.wr d v := by simp [State.co]
@[simp] theorem ext_wr (s : State) (d : Reg) (v : Word) : (s.wr d v).ext = s.ext := by simp [State.ext]
@[simp] theorem cur_retire (s : State) :
    s.retire.cur = { s.cur with co := s.passed, chunk := s.cur.chunk.retired } := by simp [State.retire]
@[simp] theorem co_retire (s : State) : s.retire.co = s.passed := by simp [State.co]
@[simp] theorem ext_retire (s : State) : s.retire.ext = s.ext := by simp [State.ext]
@[simp] theorem cur_jump (s : State) (a : Word) :
    (s.jump a).cur = { s.cur with co := s.co.jumped a, chunk := s.cur.chunk.retired } := by simp [State.jump]
@[simp] theorem co_jump (s : State) (a : Word) : (s.jump a).co = s.co.jumped a := by simp [State.co]
@[simp] theorem ext_jump (s : State) (a : Word) : (s.jump a).ext = s.ext := by simp [State.ext]

/-- The other cores are as before. -/
theorem core_setCur_ne (s : State) (c : Core) {h : CoreId} (hh : h ≠ s.focus) : (s.setCur c).core h = s.core h := by
  simp [State.setCur, hh]

/-! ### Scalar registers -/

@[simp] theorem rd_zero (c : Co) : c.rd 0#5 = 0#64 := rfl
@[simp] theorem wr_zero (c : Co) (v : Word) : c.wr 0#5 v = c := rfl

/-- A register reads back what was written, s0 apart; every other register as before (R68). -/
theorem rd_wr (c : Co) (d r : Reg) (v : Word) : (c.wr d v).rd r = if r = d ∧ d ≠ 0 then v else c.rd r := by
  unfold Co.rd Co.wr
  by_cases hd : d = 0
  · rw [if_pos hd, if_neg (c := r = d ∧ d ≠ 0) fun h => h.2 hd]
  · rw [if_neg hd]
    by_cases hr : r = 0
    · rw [if_pos hr, if_neg (c := r = d ∧ d ≠ 0) fun h => hd (h.1.symm.trans hr), if_pos hr]
    · rw [if_neg hr, if_neg hr]
      by_cases h : r = d
      · subst h; rw [if_pos ⟨rfl, hd⟩]; exact Vector.getElem_set_self _
      · rw [if_neg fun x => h x.1]
        exact Vector.getElem_set_ne d.isLt r.isLt fun e => h (BitVec.eq_of_toNat_eq e.symm)

@[simp] theorem pc_wr (c : Co) (d : Reg) (v : Word) : (c.wr d v).pc = c.pc := by unfold Co.wr; split <;> rfl
@[simp] theorem next_wr (c : Co) (d : Reg) (v : Word) : (c.wr d v).next = c.next := by unfold Co.wr; split <;> rfl
@[simp] theorem lstate_wr (c : Co) (d : Reg) (v : Word) : (c.wr d v).lstate = c.lstate := by unfold Co.wr; split <;> rfl
@[simp] theorem lfrz_wr (c : Co) (d : Reg) (v : Word) : (c.wr d v).lfrz = c.lfrz := by unfold Co.wr; split <;> rfl
@[simp] theorem mode_wr (c : Co) (d : Reg) (v : Word) : (c.wr d v).mode = c.mode := by unfold Co.wr; split <;> rfl
@[simp] theorem v_wr (c : Co) (d : Reg) (x : Word) : (c.wr d x).v = c.v := by unfold Co.wr; split <;> rfl
@[simp] theorem m_wr (c : Co) (d : Reg) (v : Word) : (c.wr d v).m = c.m := by unfold Co.wr; split <;> rfl
@[simp] theorem g_wr (c : Co) (d : Reg) (v : Word) : (c.wr d v).g = c.g := by unfold Co.wr; split <;> rfl
@[simp] theorem vl_wr (c : Co) (d : Reg) (v : Word) : (c.wr d v).vl = c.vl := by unfold Co.wr; split <;> rfl
@[simp] theorem vtype_wr (c : Co) (d : Reg) (v : Word) : (c.wr d v).vtype = c.vtype := by unfold Co.wr; split <;> rfl
@[simp] theorem fmode_wr (c : Co) (d : Reg) (v : Word) : (c.wr d v).fmode = c.fmode := by unfold Co.wr; split <;> rfl
@[simp] theorem cid_wr (c : Co) (d : Reg) (v : Word) : (c.wr d v).cid = c.cid := by unfold Co.wr; split <;> rfl

/-- Outside a loop an instruction that falls through only advances the PC (R20, R105). -/
theorem passed_of_no_loop (c : Co) (a : Word) (h : c.looping = false) : c.passed a = { c with pc := a } := by
  simp [Co.passed, h]

/-- As passed_of_no_loop, for the core in focus. -/
theorem state_passed_of_no_loop (s : State) (h : s.co.looping = false) : s.passed = { s.co with pc := s.succ } := by
  simp [State.passed, Co.atLoopEnd, h, passed_of_no_loop]

end Sys2Proof.Machine.Laws
end

