-- ==== Sys2Proof/Laws/Ops.lean ====
section
/-!
SUPPORT. What the shared operations can do, said once each: issuing, an access, the end of an instruction and of a chunk,
the entry of a trap. Meanings are followed through these and no operation needs to be unfolded again.
-/

namespace Sys2Proof.Machine.Laws

/-! ### Issue (R84) -/

/-- Nothing stops an instruction whose values come from registers that hold no mark and no error. -/
theorem readStop_free {s : State} {rs : List Reg} (h : ∀ r ∈ rs, r ≠ 0 → s.co.mark r = none ∧ (0, r.toNat) ∉ s.ext.badRegs) :
    s.readStop rs = none := by
  have e1 : (rs.find? fun r => r != 0 && (s.co.mark r).isSome) = none := by
    rw [List.find?_eq_none]; intro r hr
    by_cases h0 : r = 0
    · simp [h0]
    · simp [(h r hr h0).1]
  have e2 : (rs.find? fun r => r != 0 && s.cur.ext.badRegs.contains (0, r.toNat)) = none := by
    rw [List.find?_eq_none]; intro r hr
    by_cases h0 : r = 0
    · simp [h0]
    · have := (h r hr h0).2; simpa [State.ext] using fun _ => this
  unfold State.ext at *
  simp only [State.readStop, State.ext, e1, e2]

/-- Nothing stops an instruction whose registers are free. -/
theorem regStop_free {s : State} {rs ws : List Reg} (h : s.Free rs ws) : s.regStop rs ws = none := by
  obtain ⟨h1, h2⟩ := h
  unfold State.regStop
  rw [if_neg, if_neg, readStop_free h2]
  · simp only [List.any_eq_true, not_exists, not_and]
    intro r hr; simp [(h1 r hr).1]
  · simp only [List.any_eq_true, not_exists, not_and]
    intro r hr; simp [(h1 r hr).2]

/-- An instruction whose registers are free issues. -/
theorem issue_free {s : State} {rs ws : List Reg} (h : s.Free rs ws) (k : State → Out) : s.issue rs ws k = k s := by
  simp [State.issue, regStop_free h]

/-- An instruction without registers issues. -/
theorem free_nil (s : State) : s.Free [] [] := ⟨by simp, by simp⟩

/-- A computation: the result in its register, and on to the next head. -/
theorem compute_free {s : State} {d : Reg} {rs : List Reg} (h : s.Free rs [d]) (f : Co → Word) :
    s.compute d rs f = .next (s.wr d (f s.co)).retire := issue_free h _

/-- A floating-point computation: the result, the flags, and on to the next head. -/
theorem fcompute_free {s : State} {d : Reg} {rs : List Reg} (h : s.Free rs [d]) (f : Co → Nat × BitVec 5) :
    s.fcompute d rs f = .next (s.setCo ((s.co.wr d (BitVec.ofNat 64 (f s.co).1)).orFlags (f s.co).2)).retire :=
  issue_free h _

/-! ### Accesses -/

@[simp] theorem access_ok {α : Type} (s t : State) (x : α) (k : State → α → Out) : s.access (.ok t x) k = k t x := rfl
@[simp] theorem access_trap {α : Type} (s u : State) (t : Trap) (k : State → α → Out) :
    s.access (.trap u t : Acc α) k = .next ((s.counted u).takeTrap t s.co.pc) := rfl
@[simp] theorem access_cut {α : Type} (s : State) (k : State → α → Out) : s.access (.cut : Acc α) k = .next s.cutChunk := rfl
@[simp] theorem access_wait {α : Type} (s : State) (k : State → α → Out) : s.access (.wait : Acc α) k = .next s.stall := rfl
@[simp] theorem access_walk {α : Type} (s : State) (va : Word) (k : State → α → Out) :
    s.access (.walk va : Acc α) k = .next (s.awaitWalk s.co.asid va) := rfl

/-- An access that is reached notes its pages and goes on with its segments. -/
theorem target_ok {s : State} {k : Kind} {sc : Bool} {va : Word} {n : Nat} {segs : List Seg}
    (hw : s.walkWait s.space (n / 65536 + 2) va n = none) (h : s.reach s.space k sc va n = .ok segs) :
    s.target k sc va n = .ok (s.notePages k va n) segs := by
  simp [State.target, hw, h]

/-- An access that is not reached traps, with its pages noted. -/
theorem target_trap {s : State} {k : Kind} {sc : Bool} {va : Word} {n : Nat} {t : Trap}
    (hw : s.walkWait s.space (n / 65536 + 2) va n = none) (h : s.reach s.space k sc va n = .error t) :
    s.target k sc va n = .trap (s.notePages k va n) t := by
  simp [State.target, hw, h]

/-! ### The end of a chunk (R247, R248) -/

/-- The core in focus does not meet the conflict test against itself. -/
theorem focus_not_conflicting (s : State) (p : Nat) (lines : List Nat) : (s.conflicting p (some s.focus) lines).contains s.focus = false := by
  simp [State.conflicting]

/-- Nothing holds a chunk that may commit. -/
theorem commitHeld_of {s : State} (h : s.MayCommit) : s.commitHeld s.focus = false := by
  obtain ⟨hw, hv, hm, -, hs⟩ := h
  have e2 : s.soleBlocks (pkgOf s.focus) (some s.focus) s.cur.chunk.wrote = false := by
    unfold State.soleBlocks
    cases e : (s.pkg (pkgOf s.focus)).sole with
    | none => rfl
    | some g => simp only [hs g e]; exact focus_not_conflicting _ _ _
  simp only [State.commitHeld, core_focus, e2, hw, hv, hm]
  rfl

/-- A chunk that may commit does. -/
theorem mayCommit_of {s : State} (h : s.MayCommit) : s.mayCommit s.focus = true := by
  simp [State.mayCommit, commitHeld_of h, State.mmioStands, core_focus, h.2.2.2.1]

/-- A chunk that may commit does. -/
theorem commit_of {s : State} (h : s.MayCommit) : s.commit s.focus = some (s.commitNow s.focus) := by
  simp [State.commit, mayCommit_of h]

/-- The chunk of an instruction that has not ended it yet commits. -/
theorem ownCommit_of {s : State} (h : s.MayCommit) (he : s.ext.ended = false) : s.ownCommit = some (s.commitNow s.focus) := by
  simp [State.ownCommit, he, commit_of h]

/-- Two states between which nothing that a commit depends on differs: the waiting chunk, the vector queue, the chunk's MMIO accesses, who
has the sole grant, and the core. -/
structure SameCommit (s t : State) : Prop where
  waiting : t.cur.waiting = s.cur.waiting
  vq : t.cur.vq = s.cur.vq
  mmio : t.cur.chunk.mmio = s.cur.chunk.mmio
  mloads : t.cur.chunk.mloads = s.cur.chunk.mloads
  sole : (t.pkg (pkgOf s.focus)).sole = (s.pkg (pkgOf s.focus)).sole
  focus : t.focus = s.focus

/-- A state differs from itself in nothing. -/
theorem SameCommit.refl (s : State) : SameCommit s s := ⟨rfl, rfl, rfl, rfl, rfl, rfl⟩

/-- Whether a commit may go on depends on that alone. -/
theorem SameCommit.mayCommit {s t : State} (h : SameCommit s t) (c : s.MayCommit) : t.MayCommit := by
  simpa [State.MayCommit, h.waiting, h.vq, h.mmio, h.mloads, h.focus, h.sole] using c

/-- Completing an instruction changes none of it. -/
theorem SameCommit.retire {s t : State} (h : SameCommit s t) : SameCommit s t.retire :=
  ⟨by simpa using h.waiting, by simpa using h.vq, by simpa [Chunk.retired] using h.mmio, by simpa [Chunk.retired] using h.mloads,
    by simpa using h.sole, by simpa using h.focus⟩

/-- An instruction that ends its chunk: complete, and its chunk committed. -/
theorem ends_of {s t : State} (h : s.MayCommit) (e : SameCommit s t) : s.ends t = .next (s.ended t) := by
  have := commit_of (e.retire.mayCommit h)
  rw [e.retire.focus] at this
  simp only [State.ends, State.endsDone, State.ended, this]

/-- As ends_of, with what the instruction does at the commit point, unless that is held up. -/
theorem endsHeld_of {s t : State} {held : State → Bool} (h : s.MayCommit) (e : SameCommit s t) (hh : held (s.ended t) = false) (a : After)
    (k : State → State) : s.endsHeld t a held k = .next (k (s.ended t)) := by
  have := commit_of (e.retire.mayCommit h)
  rw [e.retire.focus] at this
  unfold State.ended at hh
  simp only [State.endsHeld, State.ended, this, hh, Bool.false_eq_true, if_false]

/-- As ends_of, with what the instruction does at the commit point. -/
theorem endsWith_of {s t : State} (h : s.MayCommit) (e : SameCommit s t) (a : After) (k : State → State) :
    s.endsWith t a k = .next (k (s.ended t)) := endsHeld_of h e rfl a k

/-- As ends_of, with what follows the commit, for which the instruction waits. -/
theorem endsThen_of {s t : State} (h : s.MayCommit) (e : SameCommit s t) (k : State → State) :
    s.endsThen t k = .next (k (s.ended t)) := by
  have := commit_of (e.retire.mayCommit h)
  rw [e.retire.focus] at this
  simp only [State.endsThen, State.ended, this]

/-- An instruction that ends its chunk and changes nothing before. -/
theorem ends_self {s : State} (h : s.MayCommit) : s.ends s = .next (s.ended s) := ends_of h (.refl s)

/-! ### What a commit leaves alone -/

section
variable (s : State)

@[simp] theorem focus_healed (p : Nat) (g : Codeword → Bool) : (s.healed p g).focus = s.focus := by
  unfold State.healed; dsimp only; split <;> rfl
@[simp] theorem mem_healed (p : Nat) (g : Codeword → Bool) : (s.healed p g).mem = s.mem := by
  unfold State.healed; dsimp only; split <;> rfl
@[simp] theorem cores_healed (p : Nat) (g : Codeword → Bool) : (s.healed p g).cores = s.cores := by
  unfold State.healed; dsimp only; split <;> rfl
@[simp] theorem focus_heal (a n : Nat) : (s.heal a n).focus = s.focus := focus_healed ..
@[simp] theorem mem_heal (a n : Nat) : (s.heal a n).mem = s.mem := mem_healed ..
@[simp] theorem cores_heal (a n : Nat) : (s.heal a n).cores = s.cores := cores_healed ..
@[simp] theorem focus_healWritten (p : Nat) (l : List Pa) : (s.healWritten p l).focus = s.focus := focus_healed ..
@[simp] theorem mem_healWritten (p : Nat) (l : List Pa) : (s.healWritten p l).mem = s.mem := mem_healed ..
@[simp] theorem focus_stalePlanes (p : Nat) (l : List (Nat × Nat)) : (s.stalePlanes p l).focus = s.focus := rfl
@[simp] theorem mem_stalePlanes (p : Nat) (l : List (Nat × Nat)) : (s.stalePlanes p l).mem = s.mem := rfl
@[simp] theorem focus_squash (g : CoreId) (b : Bool) : (s.squash g b).focus = s.focus := by
  unfold State.squash; dsimp only; split
  · rfl
  · split <;> rfl
@[simp] theorem mem_squash (g : CoreId) (b : Bool) : (s.squash g b).mem = s.mem := by
  unfold State.squash; dsimp only; split
  · rfl
  · split <;> rfl

end

/-- A fold of steps that leave a part of the state alone leaves it alone. -/
theorem foldl_keeps {α β : Type} {f : State → α → State} {p : State → β} (h : ∀ s x, p (f s x) = p s) (l : List α) (s : State) :
    p (l.foldl f s) = p s := by
  induction l generalizing s with
  | nil => rfl
  | cons x r ih => rw [List.foldl_cons, ih, h]

@[simp] theorem focus_squashAll (s : State) (p : Nat) (b : Option CoreId) (l : List Nat) : (s.squashAll p b l).focus = s.focus :=
  foldl_keeps (p := State.focus) (fun s g => focus_squash s g _) _ _
@[simp] theorem mem_squashAll (s : State) (p : Nat) (b : Option CoreId) (l : List Nat) : (s.squashAll p b l).mem = s.mem :=
  foldl_keeps (p := State.mem) (fun s g => mem_squash s g _) _ _

/-- Writes that no watch of their packages is set on are seen by none (R350). -/
theorem seeWrites_none {ws : List (Pa × Word)} (fuel : Nat) (s : State)
    (h : ∀ w ∈ ws, ((s.pkg (paPkg w.1)).watches.any (·.1 == w.1)) = false) : s.seeWrites fuel ws = s := by
  induction ws generalizing fuel with
  | nil => cases fuel <;> rfl
  | cons w r ih =>
    cases fuel with
    | zero => rfl
    | succ n =>
      obtain ⟨pa, v⟩ := w
      simp only [State.seeWrites, h (pa, v) (List.mem_cons_self ..), Bool.false_eq_true, if_false]
      exact ih n fun w hw => h w (List.mem_cons_of_mem _ hw)

/-- As seeWrites_none. -/
theorem takeWatches_none {ws : List (Pa × Word)} (s : State) (p : Nat)
    (h : ∀ w ∈ ws, ((s.pkg (paPkg w.1)).watches.any (·.1 == w.1)) = false) : s.takeWatches p ws = s := by
  unfold State.takeWatches; split
  · rfl
  · exact seeWrites_none _ _ h

/-- The watches of a package. -/
theorem watches_setPkg (s : State) (p n : Nat) (y : Pkg) (h : y.watches = (s.pkg p).watches) :
    ((s.setPkg p y).pkg n).watches = (s.pkg n).watches := by
  change (Tab.get Pkg.reset (Tab.set _ p y) n).watches = _
  rw [Tab.get_set]; split
  · rename_i e; rw [h, e]
  · rfl

/-- Healing leaves the watches. -/
theorem watches_healed (s : State) (p n : Nat) (g : Codeword → Bool) : ((s.healed p g).pkg n).watches = (s.pkg n).watches := by
  unfold State.healed; dsimp only; split
  · rfl
  · exact watches_setPkg _ _ _ _ rfl

/-- A squash leaves the watches. -/
theorem watches_squash (s : State) (g : CoreId) (b : Bool) (n : Nat) : ((s.squash g b).pkg n).watches = (s.pkg n).watches := by
  unfold State.squash; dsimp only; split
  · rfl
  · split
    · exact watches_setPkg _ _ _ _ rfl
    · rfl

/-- The squashes of a commit leave the watches. -/
theorem watches_squashAll (s : State) (p : Nat) (b : Option CoreId) (l : List Nat) (n : Nat) :
    ((s.squashAll p b l).pkg n).watches = (s.pkg n).watches :=
  foldl_keeps (p := fun s : State => (s.pkg n).watches) (fun s g => watches_squash s g _ n) _ _

/-- The state in which a commit's writes are seen has the watches that stood before it. -/
theorem watches_commit (s : State) (g : CoreId) (k : Chunk) (n : Nat) :
    ((((if k.wrote = [] then ({ s with mem := memPuts s.mem k.writes } : State).healWritten (pkgOf g) (k.writes.map (·.1))
      else (({ s with mem := memPuts s.mem k.writes } : State).healWritten (pkgOf g) (k.writes.map (·.1))).squashAll (pkgOf g)
        (some g) k.wrote).stalePlanes (pkgOf g) (k.writes.map fun w => (w.1, 1))).pkg n).watches) = (s.pkg n).watches := by
  change ((ite _ _ _ : State).pkg n).watches = _
  split
  · exact watches_healed _ _ n _
  · exact (watches_squashAll _ _ _ _ n).trans (watches_healed _ _ n _)

/-- What the commit of a plain chunk does: its bytes are written to memory and nothing else there, what it has posted is under way, and the
core is what the caller says of it, two events counted (R247). -/
theorem commitChunk_plain {s : State} {g : CoreId} {k : Chunk} (h : s.PlainChunk k) (rest : Core → Core) :
    (s.commitChunk g k rest).mem = memPuts s.mem k.writes ∧ (s.commitChunk g k rest).focus = s.focus ∧
    ∃ n, (s.commitChunk g k rest).core g =
      ((rest { s.core g with ext := (s.core g).ext.committed s (pkgOf g) k.posts }).countRun 1 1).countRun 3 n := by
  obtain ⟨hm, he, hw⟩ := h
  unfold State.commitChunk
  simp only [hm, he, List.foldl_nil]
  rw [takeWatches_none]
  · refine ⟨?_, ?_, ((s.pkg (pkgOf g)).sole == some g).toNat, ?_⟩
    · simp only [mem_posts, mem_setCore, mem_setPkg, mem_stalePlanes]
      split
      · rw [mem_healWritten]
      · rw [mem_squashAll, mem_healWritten]
    · simp only [focus_posts, focus_setCore, focus_setPkg, focus_stalePlanes]
      split
      · rw [focus_healWritten]
      · rw [focus_squashAll, focus_healWritten]
    · change Tab.get Core.reset (Tab.set _ g _) g = _
      rw [Tab.get_set, if_pos rfl]
  · intro w hx
    rw [List.any_eq_false]
    intro x hx'
    change x ∈ ((State.setPkg _ (pkgOf g) _).pkg _).watches at hx'
    rw [watches_setPkg, watches_commit] at hx'
    · simpa using hw w hx x hx'
    · rfl

/-- A commit of a plain chunk writes the chunk's bytes to memory, and nothing else there (R247). -/
theorem mem_commitNow {s : State} {g : CoreId} (h : s.PlainChunk (s.core g).chunk) :
    (s.commitNow g).mem = memPuts s.mem (s.core g).chunk.writes := (commitChunk_plain h _).1

/-- A commit of a plain chunk leaves the core in focus. -/
theorem focus_commitNow {s : State} {g : CoreId} (h : s.PlainChunk (s.core g).chunk) : (s.commitNow g).focus = s.focus :=
  (commitChunk_plain h _).2.1

/-- The registers after a commit of a plain chunk: as they were, with the completions of the chunk's atomics (R99, R247). -/
theorem core_commitNow {s : State} {g : CoreId} (h : s.PlainChunk (s.core g).chunk) :
    ((s.commitNow g).core g).co = (s.core g).co.completeAll (s.core g).chunk.compl ∧
    ((s.commitNow g).core g).chunk = Chunk.fresh ((s.core g).co.completeAll (s.core g).chunk.compl) := by
  obtain ⟨n, e⟩ := (commitChunk_plain h fun c => { c with
    co := c.co.completeAll (s.core g).chunk.compl, chunk := Chunk.fresh (c.co.completeAll (s.core g).chunk.compl) }).2.2
  unfold State.commitNow
  rw [e]
  exact ⟨rfl, rfl⟩

/-- A completed instruction keeps what its chunk has to write. -/
theorem plainChunk_retire {s t : State} (h : t.PlainChunk t.cur.chunk) (hf : t.focus = s.focus) :
    t.retire.PlainChunk (t.retire.core s.focus).chunk := by
  rw [← hf, ← focus_retire t, core_focus]
  simpa [State.PlainChunk, Chunk.retired] using h

/-- Outside a loop an instruction that ends its chunk only advances the PC, beside what it did. -/
theorem co_ended {s t : State} (h : t.PlainChunk t.cur.chunk) (hf : t.focus = s.focus) :
    (State.ended s t).co = t.passed.completeAll t.cur.chunk.compl := by
  have h' := plainChunk_retire h hf
  have hc := core_commitNow h'
  have e : (State.ended s t).focus = s.focus := by simpa [State.ended, hf] using focus_commitNow h'
  unfold State.co State.cur
  rw [e]
  unfold State.ended
  rw [hc.1, ← hf, ← focus_retire t, core_focus]
  simp [Chunk.retired]

/-- What an instruction that ends its chunk leaves of memory: what its chunk has stored (R247). -/
theorem mem_ended {s t : State} (h : t.PlainChunk t.cur.chunk) (hf : t.focus = s.focus) :
    (State.ended s t).mem = memPuts t.mem t.cur.chunk.writes := by
  have := mem_commitNow (plainChunk_retire h hf)
  unfold State.ended
  rw [this, ← hf, ← focus_retire t, core_focus]
  simp [Chunk.retired]

/-- A trap is entered at once where the chunk may commit and the handler can be reached (R216). -/
theorem takeTrap_of {s : State} {t : Trap} {epc : Word} (h : s.MayCommit) (hw : s.haltWaits = false)
    (hf : ((s.commitNow s.focus).reportTrap t).fate s.focus .kernel
      ((s.commitNow s.focus).reportTrap t).co.tvec = .ok) :
    s.takeTrap t epc = (let u := (s.commitNow s.focus).reportTrap t
      u.setCur { u.cur with co := u.co.trapped t epc, chunk := Chunk.fresh (u.co.trapped t epc) }) := by
  unfold State.takeTrap
  rw [mayCommit_of h, hw]
  simp only [Bool.not_true, Bool.false_eq_true, if_false]
  have : (((s.commitNow s.focus).reportTrap t).co.trapped t epc).tvec = ((s.commitNow s.focus).reportTrap t).co.tvec := rfl
  rw [this, if_pos hf]

/-- Where no advance of a loop is owed after it, a head is complete as it is (R105). -/
theorem headDone_of_advanced {s t : State} (h : t.co.lpend = false) : s.headDone t = t := by
  unfold State.headDone
  simp [h]

/-- A part of a run that holds no byte of the granary holds none (R329). -/
theorem openRun_part {pa n a m : Nat} (h : openRun pa n = true) (hn : n ≤ 2 ^ 45) (ha : pa ≤ a) (hm : a + m ≤ pa + n) (h0 : 0 < m) :
    openRun a m = true := by
  have e : ∀ x k, openRun x k = true ↔
      ¬ max x (x / 2 ^ 46 * 2 ^ 46 + 0x200000000000) < min (x + k) (x / 2 ^ 46 * 2 ^ 46 + 0x200100000000) := by
    intro x k
    unfold openRun granaryRuns paPkg
    simp
  rw [e] at h ⊢
  omega

end Sys2Proof.Machine.Laws
end

