-- ==== Sys2Proof/Tests/Slice0.lean ====
section
/-!
SUPPORT. The model's own tests: ill-formed terms for the checks of WellFormed, worked encodings and results of the spec, and
for every statement a concrete state and operands that meet its hypotheses.
-/

set_option Elab.async false

open Sys2Proof Sys2Proof.Machine

namespace Sys2Proof.Tests

/-! ### States -/

/-- What exec makes of a state. -/
def after (i : Instr) (s : State) : State := match exec i s with
  | .next t => t
  | _ => s

/-- exec answers a next state. -/
def goes (i : Instr) (s : State) : Bool := match exec i s with
  | .next _ => true
  | _ => false

/-- An access that goes on. -/
def accOk {α : Type} : Acc α → Bool
  | .ok _ _ => true
  | _ => false

theorem acc_ok {α : Type} {a : Acc α} (h : accOk a = true) : ∃ s x, a = .ok s x := by
  cases a <;> simp_all [accOk]

theorem opt_some {α : Type} {a : Option α} (h : a.isSome = true) : ∃ x, a = some x := Option.isSome_iff_exists.mp h

theorem exc_and {ε α : Type} {f : α → Bool} {a : Except ε α} (h : (match a with
    | .ok x => f x
    | .error _ => false) = true) : ∃ x, a = .ok x ∧ f x = true := by
  cases a <;> simp_all

theorem exc_ok {ε α : Type} {a : Except ε α} (h : a.isOk = true) : ∃ x, a = .ok x := by
  cases a <;> simp_all [Except.isOk, Except.toBool]

/-- An access that goes on in a state and with a value that a test accepts. -/
def okAnd {α : Type} (f : State → α → Bool) : Acc α → Bool
  | .ok s x => f s x
  | _ => false

theorem ok_and {α : Type} {f : State → α → Bool} {a : Acc α} (h : okAnd f a = true) : ∃ s x, a = .ok s x ∧ f s x = true := by
  cases a <;> simp_all [okAnd]

theorem opt_and {α : Type} {f : α → Bool} {a : Option α} (h : a.any f = true) : ∃ x, a = some x ∧ f x = true := by
  cases a <;> simp_all

/-- Every value of a table, listed or not. -/
theorem tab_all {α : Type} {P : α → Prop} {d : α} {l : List (Nat × α)} (hd : P d) (h : ∀ x ∈ l, P x.2) (k : Nat) : P (Tab.get d l k) := by
  induction l with
  | nil => simpa [Tab.get] using hd
  | cons x r ih =>
    unfold Tab.get
    split
    · exact h x (by simp)
    · exact ih fun y hy => h y (by simp [hy])

/-- Nothing holds a commit. -/
def calm (s : State) : Bool :=
  s.cur.waiting.isNone && s.cur.vq.isEmpty && s.cur.chunk.mmio.isEmpty && s.cur.chunk.mloads.isEmpty && (s.pkg (pkgOf s.focus)).sole.isNone

theorem calm_may {s : State} (h : calm s = true) : s.MayCommit := by
  simp only [calm, Bool.and_eq_true, List.isEmpty_iff, Option.isNone_iff_eq_none] at h
  obtain ⟨⟨⟨⟨h1, h2⟩, h3⟩, h4⟩, h5⟩ := h
  exact ⟨h1, h2, h3, h4, by simp [h5]⟩

/-- No register is pending, owed by the chunk, marked or in error. -/
def unowed (s : State) : Bool :=
  s.co.pend == 0 && s.cur.chunk.compl.isEmpty && s.cur.chunk.posts.isEmpty && s.co.marks.isEmpty && s.ext.badRegs.isEmpty

theorem free_of {s : State} (h : unowed s = true) (rs ws : List Reg) : s.Free rs ws := by
  simp only [unowed, Bool.and_eq_true, List.isEmpty_iff, beq_iff_eq] at h
  obtain ⟨⟨⟨⟨h1, h2⟩, h3⟩, h4⟩, h5⟩ := h
  exact ⟨fun r _ => ⟨by simp [Co.isPend, h1], by simp [Chunk.owes, h2, h3]⟩, fun r _ _ => ⟨by simp [Co.mark, h4], by simp [h5]⟩⟩

/-- Nothing in the registers, the chunk or the package holds an instruction of the core in focus up. -/
def quiet (s : State) : Bool :=
  unowed s && calm s && s.ext.badRegs.isEmpty && s.cur.vq.isEmpty && s.ext.vpend.isEmpty && s.ext.cpend.isEmpty && s.ext.mpend == 0

theorem quiet_ready {s : State} (h : quiet s = true) : (∀ rs ws, s.Free rs ws) ∧ s.MayCommit ∧ s.VectorFree := by
  simp only [quiet, Bool.and_eq_true, beq_iff_eq, List.isEmpty_iff] at h
  obtain ⟨⟨⟨⟨⟨⟨h1, h2⟩, h3⟩, h4⟩, h5⟩, h6⟩, h7⟩ := h
  exact ⟨free_of h1, calm_may h2, h4, h5, h6, h7, h3⟩

/-- Nothing holds up an instruction that reads a and writes d, which the chunk's posts do not owe. -/
theorem free_of_chunk {s : State} (h : (s.co.pend == 0 && s.co.marks.isEmpty && s.ext.badRegs.isEmpty) = true) (a d : Reg)
    (ho : (s.cur.chunk.owes a || s.cur.chunk.owes d) = false) : s.Free [a] [d] := by
  simp only [Bool.and_eq_true, List.isEmpty_iff, beq_iff_eq, Bool.or_eq_false_iff] at h ho
  obtain ⟨⟨h1, h2⟩, h3⟩ := h
  refine ⟨fun r hr => ⟨by simp [Co.isPend, h1], ?_⟩, fun r _ _ => ⟨by simp [Co.mark, h2], by simp [h3]⟩⟩
  rcases List.mem_append.mp hr with hr | hr <;> (rw [List.mem_singleton.mp hr]; first | exact ho.1 | exact ho.2)

/-- A coroutine of tenant 0 in slot 0 of core 0, placed as log 3 says, with windows in two packages: s1 an address in the alias
window, s2 the number 5, s3 a signalling NaN of f64, s4 an address that no alignment suits, s5 an alias address of package 1. -/
def base : State :=
  let s := State.reset.withFetchWord 48 0x28404230
  let x := s.tenant 0 0
  let s := s.setTenant 0 0 { x with cfg := { x.cfg with
    windows := [(0, 0x10000000), (2 ^ 46, 0x10000000), (0x300000000000, 0x10000000), (0x210000000000, 0x10000000)], clset := 3, pcount := 2 } }
  let s := s.setTenant 1 0 { Tenant.reset with cfg := { Tenant.reset.cfg with windows := [(2 ^ 46, 0x10000000)] } }
  let s := s.setCore 0 { s.core 0 with
    tlb := [⟨0, 16, 3, 0x300008100000 / 65536, false, true, true, false⟩, ⟨0, 16, 4, 3, true, true, true, true⟩,
      ⟨0, 16, 5, 0x40000003, true, true, true, true⟩] }
  s.setCo ((((({ s.co with next := s.co.pc + 2 }.wr 1 0xFC00000000020000).wr 2 5).wr 3 0x7FF0000000000001).wr 4 0xFC0000000002007F).wr 5
    0xFC00400000020000)

/-- The same with other registers. -/
def withCo (f : Co → Co) : State := base.setCo (f base.co)

/-- The same in kernel mode. -/
def kern : State := withCo fun c => { c with mode := .kernel }

theorem base_ready : (∀ rs ws, base.Free rs ws) ∧ base.MayCommit ∧ base.VectorFree := quiet_ready (by decide +kernel)
theorem kern_ready : (∀ rs ws, kern.Free rs ws) ∧ kern.MayCommit ∧ kern.VectorFree := quiet_ready (by decide +kernel)

/-! ### Scalar arithmetic, floating point and memory -/

theorem witness_IntegerResults : base.Free [1, 2] [3] ∧ base.Free [1, 2, 3] [4] ∧ base.Free [] [0] := ⟨base_ready.1 _ _, base_ready.1 _ _, base_ready.1 _ _⟩

theorem witness_ScalarFrames : base.co.looping = false ∧ base.Free [1, 2, 3] [0] := ⟨by decide +kernel, base_ready.1 _ _⟩

theorem witness_FpArithmeticResults : base.Free [1, 2, 3] [4] ∧ (0x60 : BitVec 7).extractLsb' 3 4 = 12 := ⟨base_ready.1 _ _, by decide⟩

theorem witness_FpComparisons : base.Free [3, 2] [4] ∧ (Claims.fv true (base.rd 3)).isNan = true ∧
    (Claims.fv true (base.rd 2)).isNan = false ∧ (Claims.fv true (base.rd 0)).isNan = false :=
  ⟨base_ready.1 _ _, by decide +kernel, by decide +kernel, by decide +kernel⟩

theorem witness_FclassSetsOneBit : base.Free [3] [4] := base_ready.1 _ _

theorem witness_LoadsReadWhatIsSeen : ∀ n ∈ [1, 2, 4, 8], ∃ segs, Claims.LoadsHere base true (base.rd 4 + (0 : BitVec 27).signExtend 64) n segs := by
  intro n hn
  exact ⟨[⟨0x2007F, n, true⟩], by unfold Claims.LoadsHere Claims.Reached Claims.TakesRead; revert n; decide +kernel⟩

theorem witness_StoresWriteTheirBytes : ∀ n ∈ [1, 2, 4, 8], ∃ segs, Claims.StoresHere base (base.rd 4 + (0 : BitVec 27).signExtend 64) n segs := by
  intro n hn
  exact ⟨[⟨0x2007F, n, true⟩], by unfold Claims.StoresHere Claims.Reached Claims.TakesWrite; revert n; decide +kernel⟩

/-- base with a store that is to be posted to the address in s5. -/
def posted : State := base.setChunk { base.cur.chunk with
  posts := [⟨.remoteWriteAtHome base.who 0x400000020000 8 7 ⟨0, 0, []⟩, 1, 0x400000020000, 8⟩] }

/-- An address of package 1; the same where the chunk's own store is to be posted to it first; and one whose last bytes lie there. -/
theorem witness_RemoteAccessesAreSent : (∃ segs, Claims.Reached base .load true (base.rd 5) 8 segs ∧ Claims.Reached base .store true (base.rd 5) 8 segs ∧
      remote (pkgOf base.focus) segs = true ∧ (∀ g ∈ segs, paPkg g.pa ≠ pkgOf base.focus) ∧ base.isMmio segs = false ∧ base.cur.postsTo segs = false) ∧
    (∃ segs, Claims.Reached posted .load true (posted.rd 5) 8 segs ∧ (∀ g ∈ segs, paPkg g.pa ≠ pkgOf posted.focus) ∧ posted.cur.postsTo segs = true ∧
      posted.Free [5] [3]) ∧
    ∃ segs v ps, Claims.Reached base .load true 0x4FFFC 8 segs ∧ remote (pkgOf base.focus) segs = true ∧
      (base.notePages .load 0x4FFFC 8).loadPieces 0x4FFFC segs = .ok v ps := by
  unfold Claims.Reached
  refine ⟨⟨[⟨2 ^ 46 + 0x20000, 8, true⟩], by decide +kernel⟩, ⟨[⟨2 ^ 46 + 0x20000, 8, true⟩], by decide +kernel, by decide +kernel, by decide +kernel,
    free_of_chunk (by decide +kernel) 5 3 (by decide +kernel)⟩, ?_⟩
  obtain ⟨v, ps, h⟩ := acc_ok (a := (base.notePages .load 0x4FFFC 8).loadPieces 0x4FFFC [⟨0x3FFFC, 4, true⟩, ⟨0x400000030000, 4, true⟩]) (by decide +kernel)
  exact ⟨_, v, ps, by decide +kernel, by decide +kernel, h⟩

/-- base with a walk of page 0x10 in progress. -/
def walkedPage : State := base.setPkg 0 { base.pkg 0 with walks := [⟨[.core 1], 0, 0x100000, 0, 0⟩] }

/-- Below the alias window where no translation is: at once, and while another core's walk of the page is in progress. -/
theorem witness_FailedAccessesTrap :
    (base.walkWait base.space 2 (base.rd 0 + (0x100000 : BitVec 27).signExtend 64) 8 = none ∧
      base.reach base.space .load true (base.rd 0 + (0x100000 : BitVec 27).signExtend 64) 8 = .error ⟨5, 0x100000, 0, none⟩ ∧
      base.reach base.space .store true (base.rd 0 + (0x100000 : BitVec 27).signExtend 64) 8 = .error ⟨6, 0x100000, 0, none⟩) ∧
    walkedPage.walkWait walkedPage.space 2 (walkedPage.rd 0 + (0x100000 : BitVec 27).signExtend 64) 8 = some 0x100000 ∧ walkedPage.Free [0, 1] [] :=
  ⟨by decide +kernel, by decide +kernel, free_of (by decide +kernel) _ _⟩

theorem witness_AmosAreIndivisible : (∀ dbl : Bool, ∃ segs, Claims.AmoHere base dbl (base.rd 1) segs) ∧ base.co.looping = false ∧
    (base.rd 4).toNat % 4 ≠ 0 ∧ (∃ segs, (base.rd 1).toNat % 8 = 0 ∧ Claims.Reached base .store false (base.rd 1) 8 segs) ∧
    ∃ segs, (base.rd 5).toNat % 8 = 0 ∧ Claims.Reached base .store false (base.rd 5) 8 segs ∧ remote (pkgOf base.focus) segs = true := by
  unfold Claims.AmoHere Claims.Reached Claims.TakesRead Claims.TakesWrite
  refine ⟨fun dbl => ⟨[⟨0x20000, if dbl then 8 else 4, true⟩], ?_⟩, by decide +kernel, by decide +kernel, ⟨[⟨0x20000, 8, true⟩], by decide +kernel⟩,
    ⟨[⟨2 ^ 46 + 0x20000, 8, true⟩], by decide +kernel⟩⟩
  revert dbl
  decide +kernel

theorem witness_FuturesAreSent : base.MayCommit ∧ (∃ u pa, base.futureTarget .load (base.rd 1 + (0 : BitVec 27).signExtend 64) = .ok u pa) ∧
    ∃ u pa, base.futureTarget .store (base.rd 1 + (0 : BitVec 27).signExtend 64) = .ok u pa ∧ base.mergesFailing pa 8 = false := by
  obtain ⟨u, pa, h, c⟩ := ok_and (f := fun _ pa => !base.mergesFailing pa 8)
    (a := base.futureTarget .store (base.rd 1 + (0 : BitVec 27).signExtend 64)) (by decide +kernel)
  exact ⟨base_ready.2.1, acc_ok (by decide +kernel), u, pa, h, by simpa using c⟩

theorem witness_MmioAccesses : ∃ segs g, segs.head? = some g ∧ kern.isMmio segs = true ∧ remote (pkgOf kern.focus) segs = false ∧
    Claims.Reached kern .load true (kern.rd 0 + (0x30000 : BitVec 27).signExtend 64) 8 segs ∧
    Claims.Reached kern .store true (kern.rd 0 + (0x30000 : BitVec 27).signExtend 64) 8 segs ∧ kern.mmioClash kern.cur.chunk.mmio g.pa = false ∧
    (kern.setChunk { kern.cur.chunk with mloads := [(0, g.pa, 77)] }).mmioStands { kern.cur.chunk with mloads := [(0, g.pa, 77)] } = false := by
  unfold Claims.Reached
  exact ⟨[⟨0x300008100000, 8, false⟩], ⟨0x300008100000, 8, false⟩, by decide +kernel⟩

/-- base with a store of its chunk; and the same where core 1, which has read the line, has the sole grant. -/
def storing : State := base.setChunk { base.cur.chunk with writes := [(3, 7)], wrote := [0] }
def soleElsewhere : State :=
  let s := storing.setCore 1 { Core.reset with running := some 0, chunk := { Chunk.fresh Co.reset with reads := [0] } }
  s.setPkg 0 { s.pkg 0 with sole := some 1 }

theorem witness_CommitWritesExactlyTheChunk : (base.MayCommit ∧ base.PlainChunk base.cur.chunk ∧ Memory.wf base.mem = true) ∧
    (storing.cur.chunk.writes = [(3, 7)] ∧ storing.MayCommit ∧ storing.PlainChunk storing.cur.chunk ∧ Memory.wf storing.mem = true) ∧
    soleElsewhere.commitHeld 0 = true ∧ soleElsewhere.cur.waiting = none ∧ soleElsewhere.cur.vq = [] ∧ soleElsewhere.cur.chunk.mmio = [] ∧
    soleElsewhere.cur.chunk.mloads = [] ∧ soleElsewhere.cur.chunk.after = none ∧ soleElsewhere.focus = 0 ∧
    (soleElsewhere.core 0).running ≠ none ∧ storing.soleBlocks 0 (some 0) [0] = false :=
  ⟨⟨base_ready.2.1, ⟨by decide +kernel, by decide +kernel, by decide +kernel⟩, by decide +kernel⟩,
    ⟨by decide +kernel, calm_may (by decide +kernel), ⟨by decide +kernel, by decide +kernel, by decide +kernel⟩, by decide +kernel⟩, by decide +kernel⟩

/-- The same with an open batch. -/
def batchElsewhere : State := soleElsewhere.setExt { soleElsewhere.ext with openB := some ⟨0, 1⟩ }

theorem witness_ChunksWait : (∀ i ∈ [Instr.cseal, .snap, .balloc 3, .tarmc 1 2, .tpollc 3 1, .mhand 0, .spawn 4 1 2 3 0 0],
      ∃ u a, Claims.Ends soleElsewhere i u a) ∧ ∃ u a, Claims.Ends batchElsewhere .cseal u a := by
  have f := free_of (s := soleElsewhere) (by decide +kernel)
  refine ⟨fun i hi => ?_, _, _, .inr (.inl ⟨_, rfl, rfl, .inr (by decide +kernel), rfl, rfl⟩)⟩
  simp only [List.mem_cons, List.not_mem_nil, or_false] at hi
  rcases hi with rfl | rfl | rfl | rfl | rfl | rfl | rfl
  · exact ⟨_, _, .inl ⟨rfl, by decide +kernel, rfl, rfl⟩⟩
  · exact ⟨_, _, .inr (.inr (.inl ⟨rfl, rfl, rfl⟩))⟩
  · exact ⟨_, _, .inr (.inr (.inr (.inl ⟨_, rfl, f _ _, rfl, rfl⟩)))⟩
  · exact ⟨_, _, .inr (.inr (.inr (.inr (.inl ⟨_, _, rfl, f _ _, rfl, rfl⟩))))⟩
  · exact ⟨_, _, .inr (.inr (.inr (.inr (.inr (.inl ⟨_, _, rfl, f _ _, rfl, rfl⟩)))))⟩
  · exact ⟨_, _, .inr (.inr (.inr (.inr (.inr (.inr (.inl ⟨_, rfl, f _ _, by decide +kernel, rfl, rfl⟩))))))⟩
  · exact ⟨_, _, .inr (.inr (.inr (.inr (.inr (.inr (.inr ⟨_, _, _, _, _, _, rfl, f _ _, rfl, rfl⟩))))))⟩

/-! ### Control flow, traps, control registers, coroutines and tokens -/

theorem head_of_fate {s : State} {t : Word} (h : s.fate s.focus s.co.mode t = .ok) : ¬Claims.NotAHead s t := by
  unfold State.fate at h
  split at h
  · cases h
  · next h0 =>
    rintro (h1 | h1 | ⟨b, hb, hw, hl⟩)
    · exact h0 (.inl h1)
    · exact h0 (.inr h1)
    · have e : lineBase t = t - BitVec.ofNat 64 (t.toNat % 64) := by
        unfold lineBase; bv_omega
      rw [e, hb] at h
      simp [hw, hl] at h

/-- Head 1 of the line is a head, its place 2 and its count word are none. -/
theorem witness_BranchesAndJumps : base.Free [1, 2] [] ∧ base.Free [1] [3] ∧ ¬Claims.NotAHead base base.co.pc ∧
    ¬Claims.NotAHead base (base.co.pc + (0 : BitVec 22).signExtend 64 * 2) ∧
    Claims.NotAHead base (base.co.pc + (1 : BitVec 22).signExtend 64 * 2) ∧
    Claims.NotAHead base (base.rd 1 + (0 : BitVec 27).signExtend 64) ∧ (base.rd 1 == base.rd 2) = false ∧ (base.rd 2 == base.rd 2) = true := by
  refine ⟨base_ready.1 _ _, base_ready.1 _ _, head_of_fate (by decide +kernel), head_of_fate (by decide +kernel), .inr (.inr ?_),
    .inl (by decide +kernel), by decide +kernel, by decide +kernel⟩
  obtain ⟨b, hb⟩ := exc_ok (a := base.lineBytes base.focus base.co.mode (base.co.pc - BitVec.ofNat 64 2)) (by decide +kernel)
  have h : (match base.lineBytes base.focus base.co.mode (base.co.pc - BitVec.ofNat 64 2) with
    | .ok b => lineWf b && lineCount b == 1
    | _ => false) = true := by decide +kernel
  rw [hb] at h
  simp only [Bool.and_eq_true, beq_iff_eq] at h
  have hl : (base.co.pc + (1 : BitVec 22).signExtend 64 * 2) - BitVec.ofNat 64 ((base.co.pc + (1 : BitVec 22).signExtend 64 * 2).toNat % 64) =
    base.co.pc - BitVec.ofNat 64 2 := by decide +kernel
  exact ⟨b, hl ▸ hb, h.1, h.2 ▸ by decide +kernel⟩

/-- base with trip counts of n in s10 and s11. -/
def trips (n : Word) : State := withCo fun c => (c.wr 10 (n <<< 32)).wr 11 (n <<< 32)

/-- A loop of two levels and one head, in its last head, which is the one at base's PC. -/
def looping (n : Word) : State :=
  let s := after (.loop 1 10 4 6 1) (trips n)
  s.setCo { s.co with pc := base.co.pc, next := base.co.next }

theorem witness_LoopRuns : (Instr.loop 1 10 4 6 1).wf = true ∧ (Instr.loop 5 26 0 26 32).wf = true ∧ (trips 2).Free (loopCounts 1 10) (loopCounts 1 10) ∧
    lDepth (trips 2).co.lstate = 0 ∧ lDepth (looping 2).co.lstate ≠ 0 ∧ (looping 2).Free (loopCounts 1 10) (loopCounts 1 10) ∧
    (∃ r ∈ loopCounts 1 10, ((trips 0).rd r).extractLsb' 32 32 = 0) ∧ (∀ r ∈ loopCounts 1 10, ((trips 2).rd r).extractLsb' 32 32 ≠ 0) := by
  refine ⟨by decide, by decide, (quiet_ready (by decide +kernel)).1 _ _, by decide +kernel, by decide +kernel, (quiet_ready (by decide +kernel)).1 _ _, by decide +kernel,
    by decide +kernel⟩

/-- What the end of a pass asks. -/
def ending (s : State) : Bool :=
  s.co.looping && lstateOk s.co.lstate && s.co.loopFree && lPos s.co.lstate + 1 == lBody s.co.lstate && !s.loopMeets

theorem witness_LoopAdvances : ending (looping 1) = true ∧ ending (looping 2) = true ∧
    (0 < lDepth (looping 2).co.lstate ∧ Claims.Advances (looping 2).co 0) ∧
    ∀ j, j < lDepth (looping 1).co.lstate → ¬Claims.Advances (looping 1).co j := by
  unfold Claims.Advances
  refine ⟨by decide +kernel, by decide +kernel, ⟨by decide +kernel, by decide +kernel⟩, fun j hj => ?_⟩
  have h : lDepth (looping 1).co.lstate = 2 := by decide +kernel
  rw [h] at hj
  interval_cases j <;> decide +kernel

/-- base with a handler: the head itself, or no head. -/
def handled : State := withCo fun c => { c with tvec := c.pc }

theorem witness_TrapEntryWritesTheTrapRegisters : Claims.Enters handled ⟨14, 7, 0, none⟩ ∧ handled.PlainChunk handled.cur.chunk ∧ base.MayCommit ∧
    base.haltWaits = false ∧ base.cur.running = some 0 ∧
    ((base.commitNow base.focus).reportTrap ⟨14, 7, 0, none⟩).fate base.focus .kernel base.co.tvec ≠ .ok :=
  ⟨⟨(quiet_ready (by decide +kernel)).2.1, by decide +kernel⟩, ⟨by decide +kernel, by decide +kernel, by decide +kernel⟩, base_ready.2.1, by decide +kernel⟩

/-- Kernel mode with a return address. -/
def returning (epc : Word) : State := withCo fun c => { c with mode := .kernel, epc := epc }

theorem witness_TrapsAndReturn : base.MayCommit ∧ (base.haltWaits = false ∧ base.retire.co.lpend = false ∧ base.co.mode = .user ∧ kern.co.mode = .kernel ∧
    (returning 64).fate 0 .user 64 = .misaligned ∧ (returning base.co.pc).fate 0 .user base.co.pc ≠ .misaligned ∧
    (returning base.co.pc).cur.chunk.compl = []) ∧ (returning base.co.pc).MayCommit :=
  ⟨base_ready.2.1, by decide +kernel, (quiet_ready (by decide +kernel)).2.1⟩

theorem witness_CsrChecks : ¬Claims.csrReached base 0x100 ∧ ¬Claims.csrReached kern 0x400 ∧ ¬Claims.csrReached kern 0x4FF ∧
    (Claims.csrReached base 0x0FF ∧ base.csrRead 0x0FF = none) ∧ (Claims.csrReached kern 0x3FF ∧ kern.csrRead 0x3FF = none) ∧
    (Claims.csrReached base 0 ∧ base.csrRead 0 = some 0 ∧ 0 ∈ Claims.csrReadOnly) ∧
    (Claims.csrReached base 0x040 ∧ base.csrRead 0x040 = some 0 ∧ 0x040 ∈ Claims.csrKernelWritten ∧ base.co.mode = .user) ∧
    (Claims.csrReached base 0x008 ∧ base.csrRead 0x008 = some 1 ∧ 0x008 ∉ Claims.csrReadOnly ∧ 0x008 ∉ Claims.csrKernelWritten ∧
      base.cur.vq = [] ∧ base.co.csrAccepts 0x008 (base.rd 0) = false) := by
  unfold Claims.csrReached
  refine ⟨?_, ?_, ?_, ?_, ?_, ?_, ?_⟩ <;> decide +kernel

theorem witness_CsrReadsAndWrites : (base.Free [2] [3] ∧ base.MayCommit) ∧ (Claims.csrReached base 0x010 ∧ base.csrRead 0x010 = some 0 ∧
      (0x010, BitVec.allOnes 64) ∈ Claims.csrMask ∧ base.co.csrAccepts 0x010 (base.rd 2) = true ∧ base.co.looping = false ∧
      base.cur.chunk.compl = [] ∧ base.cur.vq = []) ∧
    (Claims.csrReached base 0x008 ∧ (0x008, (0x1F07 : Word)) ∈ Claims.csrMask ∧ base.co.csrAccepts 0x008 (base.rd 2) = true) ∧
    (Claims.csrReached kern 0x100 ∧ kern.csrRead 0x100 = some 700000000 ∧ kern.co.mode = .kernel ∧ kern.co.csrAccepts 0x100 (kern.rd 2) = true) := by
  unfold Claims.csrReached
  exact ⟨⟨base_ready.1 _ _, base_ready.2.1⟩, by decide +kernel⟩

theorem witness_CountersReadAndWrite : base.Free [] [3] ∧ base.Free [2] [3] ∧ base.MayCommit ∧ base.co.looping = false ∧
    base.cur.chunk.compl = [] ∧ base.cur.pmcsel[(15 : Fin 16)].extractLsb' 0 8 ≠ 1 ∧ base.cur.pmcsel[(15 : Fin 16)].extractLsb' 0 8 ≠ 3 ∧
    base.PlainChunk base.cur.chunk :=
  ⟨base_ready.1 _ _, base_ready.1 _ _, base_ready.2.1, by decide +kernel, by decide +kernel, by decide +kernel, by decide +kernel,
    ⟨by decide +kernel, by decide +kernel, by decide +kernel⟩⟩

/-- base with other state that no squash restores. -/
def withExt (f : Ext → Ext) : State := base.setExt (f base.ext)

/-- A package touched, one probe of it waited for, lost, and answered. -/
def touchedOne : State := withExt fun e => { e with touched := [(1, 1)] }

theorem witness_FencesAndSnap : (base.MayCommit ∧ touchedOne.MayCommit ∧ base.Free [] [3] ∧ touchedOne.Free [] [3]) ∧
    (base.ext.fence = none ∧ base.probes = [] ∧ touchedOne.ext.fence = none ∧ touchedOne.probes ≠ [] ∧
      (withExt fun e => { e with fence := some [(1, 0)] }).ext.fence = some [(1, 0)] ∧ (withExt fun e => { e with fence := some [] }).ext.lost = []) ∧
    (∃ s : State, (s.ext.fence = some [] ∧ s.ext.lost = [1] ∧ 1 ∈ s.ext.touched.map (·.1) ∧ s.haltWaits = false) ∧ s.MayCommit) ∧
    (base.ended (base.setCo (base.co.setPend 3))).probes = [] ∧ base.co.looping = false ∧ base.cur.running ≠ none ∧
    (base.ended (base.setCo (base.co.setPend 3))).ext.lost = [] ∧ (touchedOne.ended (touchedOne.setCo (touchedOne.co.setPend 3))).probes ≠ [] := by
  refine ⟨⟨base_ready.2.1, calm_may (by decide +kernel), base_ready.1 _ _, free_of (by decide +kernel) _ _⟩, by decide +kernel,
    ⟨withExt fun e => { e with fence := some [], touched := [(1, 1)], lost := [1] }, by decide +kernel, calm_may (by decide +kernel)⟩, by decide +kernel⟩

/-- base with another coroutine of its class signalled in slot 1. -/
def contended : State := base.setCur (base.cur.setSlot 1 { Slot.reset with st := .signalled })

theorem witness_YieldExitAndSpawn : (base.Free [1, 2, 3, 0] [4] ∧ base.Free [1] [] ∧ base.MayCommit) ∧ base.cur.vq = [] ∧
    (∃ t, base.ownCommit = some t ∧ t.cur.contended = false) ∧ (∃ t, contended.ownCommit = some t ∧ t.cur.contended = true) ∧
    (base.cur.running = some 0 ∧ base.retire.co.lpend = false ∧ contended.cur.vq = [] ∧ contended.cur.running = some 0 ∧
      contended.retire.co.lpend = false ∧ contended.ext.vpend = []) ∧
    (base.doneWaits = false ∧ base.ext.unacked = [] ∧ base.cur.chunk.posts = []) ∧ ∃ v pa, base.wordTarget .store false (base.rd 1) = .ok v pa := by
  refine ⟨⟨base_ready.1 _ _, base_ready.1 _ _, base_ready.2.1⟩, by decide +kernel, ⟨_, Laws.ownCommit_of base_ready.2.1 (by decide +kernel), by decide +kernel⟩,
    ⟨_, Laws.ownCommit_of (s := contended) (calm_may (by decide +kernel)) (by decide +kernel), by decide +kernel⟩, by decide +kernel,
    ⟨by decide +kernel, by decide +kernel⟩, acc_ok (by decide +kernel)⟩

/-- base with its coroutine waiting for w, and a byte of memory at 0x2_0000. -/
def waiting (w : Wait) (b : Byte) : State :=
  { base.setCur (base.cur.setSlot 0 { base.cur.slot 0 with wait := w }) with mem := memSet base.mem 0x20000 b }

/-- base with one more byte of memory. -/
def withByte (a : Nat) (b : Byte) : State := { base with mem := memSet base.mem a b }

theorem witness_AwaitsOnThisCore :
    (base.cur.vq = [] ∧ base.cur.running = some 0 ∧ base.retire.co.lpend = false) ∧ (∃ t, base.ownCommit = some t ∧
      t.co.isPend 3 = false ∧ t.ext.sealedB.length ≤ (0 : Reg).toNat ∧ ((memWord t.mem (cellPa 0 3)).extractLsb' 0 32).toInt ≤ 0 ∧
      (memWord t.mem (cellPa 0 3)).getLsbD 50 = false) ∧
    (∃ s t : State, s.ownCommit = some t ∧ s.cur.vq = [] ∧ ((memWord t.mem (cellPa 0 3)).extractLsb' 0 32).toInt ≤ 0 ∧
      (memWord t.mem (cellPa 0 3)).getLsbD 50 = true ∧ (memWord t.mem (cellPa 0 3)).getLsbD 49 = true) ∧
    (∃ s t : State, s.ownCommit = some t ∧ s.cur.vq = [] ∧ 0 < ((memWord t.mem (cellPa 0 255)).extractLsb' 0 32).toInt ∧ s.ext.vpend = []) ∧
    (∃ s t : State, s.ownCommit = some t ∧ s.cur.vq = [] ∧ t.co.isPend 3 = true ∧ s.ext.vpend = []) ∧
    ∃ s t : State, s.ownCommit = some t ∧ s.cur.vq = [] ∧ (0 : Reg).toNat < t.ext.sealedB.length ∧ s.ext.vpend = [] := by
  have own {s : State} (h : (calm s && !s.ext.ended) = true) : s.ownCommit = some (s.commitNow s.focus) := by
    simp only [Bool.and_eq_true, Bool.not_eq_true'] at h
    exact Laws.ownCommit_of (calm_may h.1) h.2
  have m1 := own (s := withByte (cellPa 0 3 + 6) 6) (by decide +kernel)
  have m2 := own (s := withByte (cellPa 0 255) 1) (by decide +kernel)
  have m3 := own (s := withCo (·.setPend 3)) (by decide +kernel)
  have m4 := own (s := withExt fun e => { e with sealedB := [⟨0, 1⟩] }) (by decide +kernel)
  exact ⟨by decide +kernel, ⟨_, own (by decide +kernel), by decide +kernel⟩, ⟨_, _, m1, by decide +kernel⟩, ⟨_, _, m2, by decide +kernel⟩,
    ⟨_, _, m3, by decide +kernel⟩, ⟨_, _, m4, by decide +kernel⟩⟩

theorem witness_AwaitsOnTokenWords : base.cur.vq = [] ∧ base.cur.running = some 0 ∧ base.retire.co.lpend = false ∧ base.Free [1, 2] [] ∧
    ∃ u pa, base.wordTarget .load false (base.rd 1) = .ok u pa ∧ ∃ t, u.ownCommit = some t := by
  obtain ⟨u, pa, h, c⟩ := ok_and (f := fun u _ => u.ownCommit.isSome) (a := base.wordTarget .load false (base.rd 1)) (by decide +kernel)
  exact ⟨by decide +kernel, by decide +kernel, by decide +kernel, base_ready.1 _ _, u, pa, h, opt_some c⟩

theorem witness_TokenCommands : base.MayCommit ∧ (∃ u pa, base.wordTarget .store false (base.rd 1) = .ok u pa) ∧
    (∃ u pa, base.wordTarget .load false (base.rd 1) = .ok u pa) ∧ base.Free [1, 2] [3] ∧
    base.cellAllowed 0 0 3 = true ∧ targetCore 3 = base.focus ∧ (base.ended base).senderReleased (base.ended base).sender = true ∧
    base.cellAllowed 0 0 0x400 = true ∧ targetCore 0x400 ≠ base.focus ∧ base.cellAllowed 0 0 0x200000 = false :=
  ⟨base_ready.2.1, acc_ok (by decide +kernel), acc_ok (by decide +kernel), base_ready.1 _ _, by decide +kernel⟩

theorem witness_TokenOperationsAtHome : ∀ pa, pa = 0x20000 ∨ pa = cellPa 0 255 →
    ((base.pkg (paPkg pa)).on = true ∧ base.homeOf pa ≠ .nowhere ∧ base.failing pa = false ∧ Memory.wf base.mem = true ∧
      (base.pkg (paPkg pa)).watches = [] ∧ base.senderReleased base.sender = true ∧ base.senderReleased (.unit 0 0 0) = true ∧
      senderPkg base.sender = paPkg pa ∧ senderPkg (.unit 0 0 0) = paPkg pa) ∧
    ∀ c, base.region pa = .cell c → ∀ k, ((base.core (paPkg pa * 1024 + c)).slot k).st ≠ .evicted := by
  have h0 : ∀ k, ((base.core 0).slot k).st ≠ .evicted := tab_all (P := fun x : Slot => x.st ≠ .evicted) (by decide) (by decide +kernel)
  rintro pa (rfl | rfl)
  · refine ⟨by decide +kernel, fun c hc => ?_⟩
    exact absurd hc (by rw [show base.region 0x20000 = .hbm by decide +kernel]; simp)
  · refine ⟨by decide +kernel, fun c hc => ?_⟩
    rw [show base.region (cellPa 0 255) = .cell 0 by decide +kernel] at hc
    cases hc
    exact h0

theorem witness_WaitersAndSnapshots :
    (((base.core 0).slot 0).gen = 0 ∧ ((base.core 0).slot 0).gen ≠ 1 ∧ (base.pkg 0).on = true ∧ base.readBusy 0x20000 8 = false ∧
      base.failing 0x20000 = false) ∧
    (∀ b ∈ [(0 : Byte), 1], let s := waiting (.count 0x20000 0 0) b
      ((s.core 0).slot 0).wait.token = some (0x20000, 0, 0) ∧ (s.core 0).running = some 0 ∧ (s.core 0).vq = [] ∧ (s.core 0).ext.vpend = [] ∧
      ((s.core 0).slot 0).wait.holds (memWord s.mem 0x20000) = (b == 0) ∧ tokOverrun (memWord s.mem 0x20000) = false) ∧
    ∀ b ∈ [(0 : Byte), 1], let s := (waiting .nothing b).setCur (base.cur.setSlot 1 { Slot.reset with st := .suspended, wait := .count 0x20000 0 0 })
      ((s.core 0).slot 1).st = .suspended ∧ ((s.core 0).slot 1).wait.goes (memWord s.mem 0x20000) = (b == 0) ∧ s.waitersFull 0x20000 = false := by
  refine ⟨by decide +kernel, ?_, ?_⟩ <;> (intro b hb; fin_cases hb <;> decide +kernel)

/-- base with a message waiting. -/
def mailed : State := base.setCur { base.cur with mailbox := [⟨0, 3, 9, 77⟩] }

theorem witness_MailboxInstructions : base.MayCommit ∧ base.Free [1, 1] [3] ∧
    (∃ u segs, base.messageTarget .load (base.rd 1) = .ok u segs ∧ ∃ v bs, u.readSegs (base.rd 1) segs = .ok v bs) ∧
    (base.rd 4).toNat % 64 ≠ 0 ∧ (base.rd 1).toNat % 64 = 0 ∧ base.cur.mailbox = [] ∧
    (∃ s : State, s.cur.handler = some (4, 0) ∧ (4 : BitVec 32) ≠ s.co.cid) ∧ (mailed.MayCommit ∧ mailed.cur.handler = none ∧
      mailed.cur.mailbox = [⟨0, 3, 9, 77⟩] ∧ ∃ u segs, mailed.messageTarget .store (mailed.rd 1) = .ok u segs ∧
        ∃ v x, u.writeHere (mailed.rd 1) segs (leBytes 64 77) = .ok v x) ∧
    ((base.rd 0).getLsbD 40 = false ∧ ((0x10000000004 : Word).getLsbD 40 = true ∧ cidCore ((0x10000000004 : Word).extractLsb' 0 32) = base.focus) ∧
      (0x10000000400 : Word).getLsbD 40 = true ∧ cidCore ((0x10000000400 : Word).extractLsb' 0 32) ≠ base.focus) := by
  obtain ⟨u, segs, h, c⟩ := ok_and (f := fun u segs => accOk (u.readSegs (base.rd 1) segs)) (a := base.messageTarget .load (base.rd 1)) (by decide +kernel)
  obtain ⟨u', segs', h', c'⟩ := ok_and (f := fun u segs => accOk (u.writeHere (mailed.rd 1) segs (leBytes 64 77)))
    (a := mailed.messageTarget .store (mailed.rd 1)) (by decide +kernel)
  exact ⟨base_ready.2.1, base_ready.1 _ _, ⟨u, segs, h, acc_ok c⟩, by decide +kernel, by decide +kernel, by decide +kernel,
    ⟨base.setCur { base.cur with handler := some (4, 0) }, by decide +kernel⟩,
    ⟨calm_may (by decide +kernel), by decide +kernel, by decide +kernel, u', segs', h', acc_ok c'⟩, by decide +kernel⟩

theorem witness_NearBlocks : base.MayCommit ∧ base.Free [1] [3] ∧ base.co.looping = false ∧ base.cur.running ≠ none ∧
    (base.rd 4).toNat % 2 ^ (base.tenant 0 0).blog2.toNat ≠ 0 ∧ 0x20000 % 2 ^ (base.tenant 0 0).blog2.toNat = 0 ∧ base.nearOk 0 0 65536 0x20000 = true ∧
    base.nearOk 0 0 65536 0xFFF0000 = true ∧ base.nearOk 0 0 65536 0x10000000 = false ∧ base.cur.blocks.length < 16 ∧ (base.pkg 0).retired = [] :=
  ⟨base_ready.2.1, base_ready.1 _ _, by decide +kernel⟩

/-- A coroutine that may park at s6: a table at s7 with one block of 64 KiB, room for its context, and b in its wake word. -/
def parking (b : Byte) : State :=
  let s := (withByte 0x30000 b).setCo ((base.co.wr 6 0xFC00000000030000).wr 7 0xFC00000000040000)
  let s : State := { s with mem := memPut s.mem 0x40000 ([0, 0, 1, 0, 0, 0, 0, 0, 16, 0] ++ List.replicate 14 0 ++ [1]) }
  let x := s.tenant 0 0
  let s := s.setTenant 0 0 { x with cfg := { x.cfg with plimit := 4 } }
  s.setPkg 0 { s.pkg 0 with nearFree := [(0x100000, 0x10000)] }

/-- The state in which PARK looks at its reasons. -/
def parkAt (s : State) (f : State → Nat → List Byte → Nat → Bool) : Bool :=
  match s.ownCommit with
  | none => false
  | some c => match (c.setExt { c.ext with ended := true }).wakeWord (s.rd 6) with
    | .ok t w => match t.chunkRead (s.rd 7) 64 with
      | .ok u bs => match u.promotionToken (ParkHead.of bs).ptok with
        | .ok v pt => f v w bs pt
        | _ => false
      | _ => false
    | _ => false

theorem park_at {s : State} {f : State → Nat → List Byte → Nat → Bool} (h : parkAt s f = true) : ∃ c t u v w bs pt, s.ownCommit = some c ∧
    (c.setExt { c.ext with ended := true }).wakeWord (s.rd 6) = .ok t w ∧ t.chunkRead (s.rd 7) 64 = .ok u bs ∧
    u.promotionToken (ParkHead.of bs).ptok = .ok v pt ∧ f v w bs pt = true := by
  unfold parkAt at h
  split at h <;> try cases h
  split at h <;> try cases h
  split at h <;> try cases h
  split at h <;> try cases h
  exact ⟨_, _, _, _, _, _, _, by assumption, by assumption, by assumption, by assumption, h⟩

/-- What PARK asks of the state there. -/
def parks (s v : State) (w : Pa) (bs : List Byte) : Bool :=
  let f := v.setExt { v.ext with touched := [], wide := false }
  (v.parkReason (s.rd 7) (ParkHead.of bs)).isOk && v.ext.unacked.isEmpty && v.ext.lost.isEmpty && !v.waitersFull w && !v.failing w &&
    (f.freeEntry (pkgOf v.focus) v.co.tenant).isSome && (f.takeTier (pkgOf v.focus) v.co.tenant.toNat 0 (v.co.parkBytes 0xC0) 64).isSome

theorem witness_ParkParks (b : Byte) (hb : b = 0 ∨ b = 7) : ((parking b).Free [6, 7] [] ∧ (parking b).cur.vq = [] ∧ (parking b).cur.running = some 0 ∧
      ((parking b).rd 7).toNat % 64 = 0) ∧
    ∃ c t u v w bs pt, (parking b).ownCommit = some c ∧ (c.setExt { c.ext with ended := true }).wakeWord ((parking b).rd 6) = .ok t w ∧
      t.chunkRead ((parking b).rd 7) 64 = .ok u bs ∧ u.promotionToken (ParkHead.of bs).ptok = .ok v pt ∧
      (parks (parking b) v w bs && ((memWord v.mem w == 0) == (b == 0))) = true := by
  rcases hb with rfl | rfl <;>
    exact ⟨⟨free_of (by decide +kernel) _ _, by decide +kernel⟩,
      park_at (f := fun v w bs _ => parks (parking _) v w bs && ((memWord v.mem w == 0) == (_ == 0))) (by decide +kernel)⟩

/-! ### Vectors -/

/-- base with a type, a register count and a vector length. -/
def vec (t : BitVec 4) (dc : BitVec 2) (vl : BitVec 17) : State := withCo fun c => { c with vtype := dc ++ t, vl := vl }

theorem vec_free (t : BitVec 4) (dc : BitVec 2) (vl : BitVec 17) : (vec t dc vl).VectorFree ∧ (vec t dc vl).MayCommit ∧ ∀ rs ws, (vec t dc vl).Free rs ws := by
  have h : quiet (vec t dc vl) = quiet base := by rfl
  exact ⟨(quiet_ready (h.trans (by decide +kernel))).2.2, (quiet_ready (h.trans (by decide +kernel))).2.1, (quiet_ready (h.trans (by decide +kernel))).1⟩

/-- base with n VADDs queued. -/
def vadd3 : VEntry := ⟨.vadd ⟨0, 3, 1, 2, 0, false, 0, 0x10⟩, 4, 2, 0, 1, 2, 0, 0, false⟩
def queued (n : Nat) : State := base.setCur { base.cur with vq := List.replicate n vadd3 }

/-- D = 8: v7 is there and v8 is not; sixteen instructions are the most that the queue holds. -/
theorem witness_VectorInstructionsComplete :
    ((vecSem (.vadd ⟨0, 7, 1, 2, 0, false, 0, 0x10⟩)).any fun m => m.ok (vec 2 0 4).co) = true ∧
    ((vecSem (.vadd ⟨0, 8, 1, 2, 0, false, 0, 0x10⟩)).any fun m => !m.ok (vec 2 0 4).co) = true ∧
    ((vecSem (.vmvx ⟨0, 7, 1, 2, 0, false, 0, 0⟩)).any fun m => m.ok (vec 2 0 4).co) = true ∧
    (queued 15).cur.vq.length = 15 ∧ (queued 15).ext.badRegs = [] ∧ (queued 15).Free [1] [2] ∧ (vec 2 0 4).VectorFree ∧ (vec 2 0 4).Free [1] [2] ∧
    ((vecSem (.mand 0 1 7)).any fun m => m.ok (vec 2 0 4).co) = true ∧
    ((queued 1).core 0).vq = [vadd3] ∧ (∃ m, vecSem vadd3.ins = some m) ∧ ((queued 1).core 0).ext.vpend = [] ∧
    ((queued 1).core 0).ext.cpend = [] ∧ ((queued 1).core 0).ext.mpend = 0 :=
  ⟨by decide +kernel, by decide +kernel, by decide +kernel, by decide +kernel, by decide +kernel, free_of (by decide +kernel) _ _,
    (vec_free _ _ _).1, (vec_free _ _ _).2.2 _ _, by decide +kernel, by decide +kernel, ⟨_, rfl⟩, by decide +kernel, by decide +kernel, by decide +kernel⟩

theorem witness_VectorIntegerResults : (vec 2 0 4).VectorFree ∧ (vec 2 0 4).Free [2] [] ∧
    Claims.vok (vec 2 0 4) ⟨0, 7, 1, 2, 0, true, 7, 0x10⟩ [7, 1, 2] ∧ Claims.vok (vec 3 2 4) ⟨2, 31, 1, 31, 0, false, 0, 0x18⟩ [31, 1] :=
  ⟨(vec_free _ _ _).1, (vec_free _ _ _).2.2 _ _, by unfold Claims.vok; decide +kernel, by unfold Claims.vok; decide +kernel⟩

theorem witness_VectorFpResults : (vec 10 0 4).VectorFree ∧ Claims.vok (vec 10 0 4) ⟨0, 7, 1, 2, 0, false, 0, 0x50⟩ [7, 1, 2] ∧
    Claims.vok (vec 13 0 4) ⟨0, 7, 1, 2, 3, false, 0, 0x6D⟩ [7, 1, 2, 3] ∧ Claims.vok (vec 14 0 4) ⟨0, 7, 1, 2, 0, false, 0, 0x70⟩ [7, 1, 2] :=
  ⟨(vec_free _ _ _).1, by unfold Claims.vok; decide +kernel, by unfold Claims.vok; decide +kernel, by unfold Claims.vok; decide +kernel⟩

theorem witness_VectorFpForms : ((vec 12 0 4).VectorFree ∧ (vec 12 0 4).Free [] [] ∧ Claims.vok (vec 12 0 4) ⟨0, 7, 1, 2, 0, false, 0, 0x60⟩ [7, 1, 2] ∧
      10 ≤ (⟨0, 7, 1, 2, 0, false, 0, 0x60⟩ : V32).t.toNat ∧ (⟨0, 7, 1, 2, 0, false, 0, 0x60⟩ : V32).t.toNat ≤ 13) ∧
    ((vec 14 0 4).VectorFree ∧ (vec 14 0 4).Free [2] [] ∧ (⟨1, 7, 1, 2, 3, false, 0, 0x70⟩ : V32).t = 14 ∧
      Claims.vok (vec 14 0 4) ⟨1, 7, 1, 2, 3, false, 0, 0x70⟩ [7, 1, 2, 3]) ∧
    (∀ o : V32, o = ⟨0, 3, 1, 0, 0, false, 0, 0x40⟩ → o.d.toNat < (vec 12 0 4).co.nregs ∧ o.a.toNat < (vec 12 0 4).co.nregs ∧
      (vec 12 0 4).co.vtype.toNat % 16 = 12 ∧ o.d ≠ o.a ∧ o.a ≠ 7 ∧ o.t.toNat ≠ 14 ∧
      (vec 12 0 4).co.vl.toNat ≤ 262144 / (vec 12 0 4).co.nregs * 8 / tyWidth o.t.toNat) := by
  refine ⟨⟨(vec_free _ _ _).1, (vec_free _ _ _).2.2 _ _, by unfold Claims.vok; decide +kernel, by decide, by decide⟩,
    ⟨(vec_free _ _ _).1, (vec_free _ _ _).2.2 _ _, by decide, by unfold Claims.vok; decide +kernel⟩, fun o ho => ?_⟩
  subst ho
  decide +kernel

theorem witness_VectorComparisonsAndMasks : (vec 12 0 4).VectorFree ∧ (vec 12 0 4).Free [2] [3] ∧
    Claims.vok (vec 12 0 4) ⟨1, 7, 1, 2, 0, false, 0, 0x60⟩ [1] ∧ Claims.vok (vec 2 0 4) ⟨2, 0, 1, 2, 0, false, 0, 0x10⟩ [1] ∧
    (vec 0 0 0x10000).co.vl.toNat ≤ 65536 ∧ (7 : Reg).toNat < (vec 0 0 0x10000).co.nregs :=
  ⟨(vec_free _ _ _).1, (vec_free _ _ _).2.2 _ _, by unfold Claims.vok; decide +kernel, by unfold Claims.vok; decide +kernel, by decide +kernel, by decide +kernel⟩

theorem witness_VectorMovesAndPermutations : (vec 2 0 4).VectorFree ∧ (∀ r ∈ [(7 : Reg), 1, 2], r.toNat < (vec 2 0 4).co.nregs) ∧ (7 : Reg) ≠ 1 ∧ (7 : Reg) ≠ 2 ∧
    (vec 2 0 4).Free [2] [7] := ⟨(vec_free _ _ _).1, by decide +kernel, by decide, by decide, (vec_free _ _ _).2.2 _ _⟩

theorem witness_VectorReductions : (vec 2 0 0).VectorFree ∧ Claims.vok (vec 2 0 0) ⟨1, 7, 1, 2, 0, false, 0, 0x10⟩ [7, 1, 2] ∧
    Claims.vok (vec 7 0 4) ⟨0, 7, 1, 0, 0, false, 0, 0x38⟩ [7, 1] ∧ Claims.vok (vec 13 0 4) ⟨1, 7, 1, 2, 0, false, 0, 0x68⟩ [7, 1, 2] :=
  ⟨(vec_free _ _ _).1, by unfold Claims.vok; decide +kernel, by unfold Claims.vok; decide +kernel, by unfold Claims.vok; decide +kernel⟩

theorem witness_ScansAreInclusive : (vec 12 0 4).VectorFree ∧ Claims.vok (vec 12 0 4) ⟨1, 7, 1, 2, 0, false, 0, 0x60⟩ [7, 1, 2] ∧
    Claims.vok (vec 0 0 4) ⟨0, 7, 1, 0, 0, false, 0, 0⟩ [7, 1] :=
  ⟨(vec_free _ _ _).1, by unfold Claims.vok; decide +kernel, by unfold Claims.vok; decide +kernel⟩

theorem witness_SetVl : base.VectorFree ∧ base.Free [2, 1] [3] ∧ base.Free [0, 1] [3] ∧ base.MayCommit ∧ (base.rd 4).toNat % 8 ≠ 0 ∧ base.rd 2 ≠ 0 ∧
    base.rd 0 = 0 ∧ base.cur.running = some 0 ∧ ∃ u pa, base.wordTarget .load false (base.rd 1) = .ok u pa :=
  ⟨base_ready.2.2, base_ready.1 _ _, base_ready.1 _ _, base_ready.2.1, by decide +kernel, by decide +kernel, by decide +kernel, by decide +kernel,
    acc_ok (by decide +kernel)⟩

/-- A SETVLHW that waits for its snapshot; its word grants b elements. -/
theorem witness_StripsGranted : ∀ b ∈ [(0 : Byte), 3], let s := waiting (.strip 0x20000 0xFC00000000020000 3 0 12 5) b
    (((s.core 0).slot 0).gen = 0 ∧ (s.core 0).running = some 0 ∧ ((s.core 0).slot 0).wait = .strip 0x20000 0xFC00000000020000 3 0 12 5) ∧
    ((s.pkg 0).on = true ∧ s.readBusy 0x20000 8 = false ∧ s.failing 0x20000 = false ∧ (s.core 0).vq = [] ∧ (s.core 0).ext.vpend = []) ∧
    (0 < (((memWord s.mem 0x20000).extractLsb' 0 32).signExtend 64 - (s.core 0).co.sbase).toInt ↔ b = 3) := by
  intro b hb
  fin_cases hb <;> decide +kernel

/-- A walk through elements that ends done, or in a fault at element i. -/
def vDone : VEnd → Bool
  | .done _ => true
  | _ => false
def vTrapAt (i : Nat) : VEnd → Bool
  | .trap _ j _ => i == j
  | _ => false

theorem v_done {e : VEnd} (h : vDone e = true) : ∃ t, e = .done t := by cases e <;> simp_all [vDone]
theorem v_trap {e : VEnd} {i : Nat} (h : vTrapAt i e = true) : ∃ t x, e = .trap t i x := by
  cases e <;> simp_all [vTrapAt]

/-- Two elements of f32 at s1, or at addresses where the second lies behind the window's end. -/
def vmem : State := vec 12 0 2
def vmemEnd : State := vmem.setCo (vmem.co.wr 1 0xFC0000000FFFFFFC)

theorem vmem_quiet : quiet vmem = true ∧ quiet vmemEnd = true := by decide +kernel

theorem witness_VectorMemory (st : Bool) :
    (∀ x ∈ Claims.vmemForms st 3, ∀ o : V32, o = ⟨0, 2, 1, 2, 0, false, 0, 0x60⟩ → Claims.vmemReady vmem o x.2.1 (x.2.2.2.1 o) (x.2.2.2.2.1 o) ∧
      (∃ t, vmem.elements ((x.2.2.2.2.2 o).element none (vmem.rd o.a) (vmem.rd o.b)) (Claims.todo vmem o) = .done t)) ∧
    (∀ x ∈ (Claims.vmemForms st 3).take 2, ∀ o : V32, o = ⟨0, 2, 1, 2, 0, false, 0, 0x60⟩ →
      Claims.vmemReady vmemEnd o x.2.1 (x.2.2.2.1 o) (x.2.2.2.2.1 o) ∧
      ∃ t e, vmemEnd.elements ((x.2.2.2.2.2 o).element none (vmemEnd.rd o.a) (vmemEnd.rd o.b)) (Claims.todo vmemEnd o) = .trap t 1 e) := by
  refine ⟨fun x hx o ho => ?_, fun x hx o ho => ?_⟩ <;> subst ho
  · refine ⟨⟨(quiet_ready vmem_quiet.1).2.2, (quiet_ready vmem_quiet.1).1 _ _, ?_⟩, ?_⟩
    all_goals
      simp only [Claims.vmemForms, List.mem_cons, List.not_mem_nil, or_false] at hx
      rcases hx with rfl | rfl | rfl | rfl
    iterate 4 (cases st <;> decide +kernel)
    all_goals exact v_done (by cases st <;> decide +kernel)
  · refine ⟨⟨(quiet_ready vmem_quiet.2).2.2, (quiet_ready vmem_quiet.2).1 _ _, ?_⟩, ?_⟩
    all_goals
      simp only [Claims.vmemForms, List.take, List.mem_cons, List.not_mem_nil, or_false] at hx
      rcases hx with rfl | rfl
    iterate 2 (cases st <;> decide +kernel)
    all_goals exact v_trap (by cases st <;> decide +kernel)

/-- VLDFF: a fault at its first element, and at its second. -/
theorem witness_VectorLoads : Claims.vmemReady vmem ⟨4, 2, 0, 0, 0, false, 0, 0x60⟩ 1 [] [0] ∧
    (∃ t e, vmem.elements ((unitOp ⟨4, 2, 0, 0, 0, false, 0, 0x60⟩ false 1).element none (vmem.rd 0) (vmem.rd 0))
      (Claims.todo vmem ⟨4, 2, 0, 0, 0, false, 0, 0x60⟩) = .trap t 0 e) ∧
    (Claims.act vmem.co ⟨4, 2, 0, 0, 0, false, 0, 0x60⟩).head? = some 0 ∧
    (∃ t e, vmemEnd.elements ((unitOp ⟨4, 2, 1, 0, 0, false, 0, 0x60⟩ false 1).element none (vmemEnd.rd 1) (vmemEnd.rd 0))
      (Claims.todo vmemEnd ⟨4, 2, 1, 0, 0, false, 0, 0x60⟩) = .trap t 1 e) ∧
    ∃ segs, vmem.reach vmem.space .load false (vmem.rd 1) 4 = .ok segs ∧ vmem.reach vmem.space .store false (vmem.rd 1) 4 = .ok segs ∧ remote 0 segs = false :=
  ⟨⟨(quiet_ready vmem_quiet.1).2.2, (quiet_ready vmem_quiet.1).1 _ _, by decide +kernel⟩, v_trap (by decide +kernel), by decide +kernel, v_trap (by decide +kernel),
    [⟨0x20000, 4, true⟩], by decide +kernel⟩

/-- A block table at s1: two positions of 1 << 16 bytes, the second block away. -/
def tabled (vl : BitVec 17) : State :=
  let s := vec 3 0 vl
  { s with mem := memPut s.mem 0x20000 ([2, 0, 0, 0, 0, 0, 0, 0, 0, 12] ++ List.replicate 14 0 ++ [2] ++ List.replicate 39 0 ++
      [0, 0, 5, 0, 0, 0, 0, 0] ++ [0, 0, 0, 0, 0, 0, 0, 0xC0])
           cores := Tab.set s.cores 0 { s.cur with co := s.co.setElem 2 64 1 1 } }

theorem tabled_quiet : quiet (tabled 1) = true ∧ quiet (tabled 2) = true := by decide +kernel

/-- Positions 0 and 1 of v2: the first translates, the second is bad. -/
theorem witness_TranslatePositions : (tabled 2).VectorFree ∧ (tabled 2).Free [1] [] ∧ (tabled 2).co.width = 64 ∧ (tabled 2).cur.chunk.vmem < 64 ∧
    (∃ t, (tabled 2).elements (State.xlateElement ⟨0, 3, 1, 2, 4, false, 0, 0⟩ ((tabled 2).rd 1)) (Claims.todo (tabled 2) ⟨0, 3, 1, 2, 4, false, 0, 0⟩) = .done t) ∧
    (∃ t, (tabled 1).elements (State.xlateffElement ⟨1, 3, 1, 2, 4, false, 0, 0⟩ ((tabled 1).rd 1)) (Claims.todo (tabled 1) ⟨1, 3, 1, 2, 4, false, 0, 0⟩) = .done t) ∧
    (∃ t e, (tabled 2).elements (State.xlateffElement ⟨1, 3, 1, 2, 4, false, 0, 0⟩ ((tabled 2).rd 1)) (Claims.todo (tabled 2) ⟨1, 3, 1, 2, 4, false, 0, 0⟩) = .trap t 1 e) ∧
    (∃ u r, (tabled 2).position ((tabled 2).rd 1) 0 = .ok u r ∧ r.isSome = true) ∧ (∃ u r, (tabled 2).position ((tabled 2).rd 1) 1 = .ok u r ∧ r.isSome = false) ∧
    Memory.wf (tabled 2).co.v = true :=
  ⟨(quiet_ready tabled_quiet.2).2.2, (quiet_ready tabled_quiet.2).1 _ _, by decide +kernel, by decide +kernel, v_done (by decide +kernel), v_done (by decide +kernel),
    v_trap (by decide +kernel), ok_and (by decide +kernel), by
      obtain ⟨u, r, h, c⟩ := ok_and (f := fun _ r => !r.isSome) (a := (tabled 2).position ((tabled 2).rd 1) 1) (by decide +kernel)
      exact ⟨u, r, h, by simpa using c⟩, by decide +kernel⟩

/-- A combining atomic of two elements, and of none. -/
theorem witness_CombiningAtomics : ∀ vl ∈ [(0 : BitVec 17), 2], (vec 2 0 vl).VectorFree ∧ (vec 2 0 vl).Free [1] [9] ∧ (vec 2 0 vl).MayCommit ∧
    Claims.vok (vec 2 0 vl) ⟨0, 9, 1, 2, 3, false, 0, 0x10⟩ [2, 3] ∧
    ((vec 2 0 vl).gather (vamoOp 0) ⟨0, 9, 1, 2, 3, false, 0, 0x10⟩ ((vec 2 0 vl).rd 1)
      ((vec 2 0 vl).co.active none ⟨0, 9, 1, 2, 3, false, 0, 0x10⟩) []).2.2 = none ∧
    (((vec 2 0 vl).gather (vamoOp 0) ⟨0, 9, 1, 2, 3, false, 0, 0x10⟩ ((vec 2 0 vl).rd 1)
      ((vec 2 0 vl).co.active none ⟨0, 9, 1, 2, 3, false, 0, 0x10⟩) []).2.1 = [] ↔ vl = 0) := by
  intro vl hv
  refine ⟨(vec_free _ _ _).1, (vec_free _ _ _).2.2 _ _, (vec_free _ _ _).2.1, ?_, ?_, ?_⟩ <;>
    (fin_cases hv <;> (try unfold Claims.vok) <;> decide +kernel)

/-- Two elements of v6 that hold a word. -/
def issuing (w : Word) : State :=
  let s := (vec 2 0 2).setCo ((vec 2 0 2).co.wr 4 0x1000)
  s.setCo ({ s.co with m := s.co.m.set 2 3 }.setElem 6 64 0 w.toNat |>.setElem 6 64 1 w.toNat)

/-- A VADD to v3, a word of zeros and a VLDX whose base no translation serves. -/
def addWord : Word := 0xA118 ||| 0x08800010 <<< 16
def loadWord : Word := 0xA91A ||| 0x21414060 <<< 16

theorem issuing_quiet : quiet (issuing addWord) = true ∧ quiet (issuing 0) = true ∧ quiet (issuing loadWord) = true := by decide +kernel

/-- A group that has run to its end. -/
def groupRan : Except State (State × Bool) → Bool
  | .ok (_, b) => b
  | .error _ => false

/-- One of which a group of its nested VISSUE is done, and another is to come. -/
def groupHalf : Except State (State × Bool) → Bool
  | .ok (_, b) => !b
  | .error _ => false

/-- Two elements of v6 that hold a VISSUE of v5, whose elements hold two words. -/
def nesting : State :=
  let s := issuing (0xAD00 ||| 0x28000000 <<< 16)
  s.setCo ((s.co.setElem 5 64 0 addWord.toNat).setElem 5 64 1 (addWord + 8).toNat)

/-- The next group runs, fails, or is no more: the last where G0 names a group beyond the only one. -/
theorem witness_Vissue : ((issuing addWord).VectorFree ∧ (issuing addWord).co.pend = 0 ∧ (6 : Reg).toNat < (issuing addWord).co.nregs ∧
      (issuing addWord).co.istate = 0 ∧ ((issuing addWord).co.grouping 6 false [6] [] [0, 1]).bad = []) ∧
    (∃ b l, ((issuing 0).co.grouping 6 false [6] [] [0, 1]).bad = b :: l) ∧
    ((Claims.group (issuing addWord) 6 0 false false 0).any groupRan = true ∧ (Claims.group (issuing loadWord) 6 0 false false 0).any groupRan = false ∧
      (Claims.group (issuing loadWord) 6 0 false false 0).isSome = true) ∧
    Claims.group ((issuing addWord).setCo { (issuing addWord).co with istate := 1 }) 6 0 false false 0 = none ∧
    (Claims.group nesting 6 0 false false 0).any groupHalf = true ∧
    ((issuing addWord).co.legal false [6] [] addWord = true ∧ (issuing addWord).co.marks = [] ∧
      ∀ j ∈ [0, 1], (issuing addWord).co.wordAt 6 j = addWord) ∧ ∃ i m, wordInstr addWord = some i ∧ wordSem addWord i = some m := by
  refine ⟨⟨(quiet_ready issuing_quiet.1).2.2, by decide +kernel⟩, ⟨0, [1], by decide +kernel⟩, by decide +kernel, by decide +kernel, by decide +kernel,
    by decide +kernel, ?_⟩
  obtain ⟨i, hi, c⟩ := opt_and (f := fun i => (wordSem addWord i).isSome) (a := wordInstr addWord) (by decide +kernel)
  exact ⟨i, _, hi, (opt_some c).choose_spec⟩

/-! ### The matrix unit, copies and collectives -/

/-- base with D = 8, f32 elements, and numbers in s6 and s7. -/
def rowed (b c : Word) : State := (vec 12 0 4).setCo (((vec 12 0 4).co.wr 6 b).wr 7 c)

/-- A weight descriptor of this coroutine, in the scratchpad of core 0. -/
def someWeights : Weights := ⟨scratchPa 0 + 0x10000, 12, [], 0, 0xFC00210000010000, 0⟩

/-- Rows that fit: 128 from 0 and 1 from 127; and such that do not: 0, 129, and 1 from 128. -/
theorem witness_RowCounts : Claims.rowsOk ((rowed 128 0).rd 6) ((rowed 128 0).rd 7) ∧ Claims.rowsOk ((rowed 1 127).rd 6) ((rowed 1 127).rd 7) ∧
    ¬Claims.rowsOk ((rowed 0 0).rd 6) ((rowed 0 0).rd 7) ∧ ¬Claims.rowsOk ((rowed 129 0).rd 6) ((rowed 129 0).rd 7) ∧
    ¬Claims.rowsOk ((rowed 1 128).rd 6) ((rowed 1 128).rd 7) := by
  unfold Claims.rowsOk
  refine ⟨?_, ?_, ?_, ?_, ?_⟩ <;> decide +kernel

/-- A scratchpad tile that fits, one outside the near memories, and a misaligned one. -/
theorem witness_MatrixJobs : (rowed 1 0).VectorFree ∧ (rowed 1 0).MayCommit ∧ (rowed 1 0).Free [1, 6, 7] [] ∧
    (∃ v segs g, (rowed 1 0).translated .load ((rowed 1 0).rd 1) (tileBytes 12) = .ok v segs ∧
      segs.head? = some g ∧ (rowed 1 0).tileFits 0 g.pa (tileBytes 12) = false) ∧
    (∃ v segs g, (rowed 1 0).translated .load 0xFC00210000010000 (tileBytes 12) = .ok v segs ∧
      segs.head? = some g ∧ (rowed 1 0).tileFits 0 g.pa (tileBytes 12) = true) ∧
    ((rowed 1 0).rd 4).toNat % 256 ≠ 0 ∧ ((rowed 1 0).rd 1).toNat % 256 = 0 ∧ (rowed 1 0).cur.jobs.length < 16 ∧
    (7 : Reg).toNat < (rowed 1 0).co.nregs ∧ tyWidth (12 : BitVec 4).toNat = (rowed 1 0).co.width ∧ ((rowed 127 0).rd 6).toNat ≤ 127 := by
  have q : quiet (rowed 1 0) = true := by decide +kernel
  obtain ⟨v, l, h, c⟩ := ok_and (f := fun _ (l : List Seg) => decide (l = [⟨0x20000, tileBytes 12, true⟩]) && !(rowed 1 0).tileFits 0 0x20000 (tileBytes 12))
    (a := (rowed 1 0).translated .load ((rowed 1 0).rd 1) (tileBytes 12)) (by decide +kernel)
  obtain ⟨v', l', h', c'⟩ := ok_and (f := fun _ (l : List Seg) => decide (l = [⟨0x210000010000, tileBytes 12, true⟩]) &&
    (rowed 1 0).tileFits 0 0x210000010000 (tileBytes 12)) (a := (rowed 1 0).translated .load 0xFC00210000010000 (tileBytes 12)) (by decide +kernel)
  simp only [Bool.and_eq_true, decide_eq_true_eq, Bool.not_eq_true'] at c c'
  exact ⟨(quiet_ready q).2.2, (quiet_ready q).2.1, (quiet_ready q).1 _ _, ⟨v, l, _, h, by rw [c.1]; rfl, c.2⟩,
    ⟨v', l', _, h', by rw [c'.1]; rfl, c'.2⟩, by decide +kernel⟩

/-- A core with weights whose coroutine has 2 rows to stream from an address. -/
def streaming (w : Weights) (va : Word) : State := ((rowed 2 0).setCur { (rowed 2 0).cur with weights := some w }).setCo ((rowed 2 0).co.wr 8 va)

/-- MSTREAM: rows in the scratchpad of its core, with a descriptor of its coroutine whose tile lies in a scratchpad, and in the granary; and rows
elsewhere. -/
theorem witness_Mstream : (∀ w ∈ [someWeights, { someWeights with pa := 0x200000000000 }], ∀ s, s = streaming w 0xFC00210000000000 →
      quiet s = true ∧ s.cur.weights = some w ∧ w.cid = s.co.cid ∧ (s.rd 8).toNat % 64 = 0 ∧ s.cur.jobs.length < 16 ∧
      ∃ n segs, s.ownRun (s.rd 8) (2 * columnBytes w.t) = .ok n segs ∧ (s.ended n).rowsHeld (segs.map fun g => (g.pa, g.len)) w = false ∧
        ((s.ended n).tileSegs w = [] ↔ w ≠ someWeights)) ∧
    (match (streaming someWeights 0xFC00000000020000).ownRun 0xFC00000000020000 1024 with
      | .trap _ e => e.cause == 5
      | _ => false) = true := by
  refine ⟨fun w hw s hs => ?_, by decide +kernel⟩
  subst hs
  have hq : quiet (streaming w 0xFC00210000000000) = true ∧ (streaming w 0xFC00210000000000).cur.weights = some w ∧
      w.cid = (streaming w 0xFC00210000000000).co.cid ∧ ((streaming w 0xFC00210000000000).rd 8).toNat % 64 = 0 ∧
      (streaming w 0xFC00210000000000).cur.jobs.length < 16 := by revert w; decide +kernel
  obtain ⟨n, segs, h, c⟩ := ok_and (f := fun n segs => decide (((streaming w 0xFC00210000000000).ended n).rowsHeld (segs.map fun g => (g.pa, g.len)) w = false ∧
    (((streaming w 0xFC00210000000000).ended n).tileSegs w = [] ↔ w ≠ someWeights)))
    (a := (streaming w 0xFC00210000000000).ownRun ((streaming w 0xFC00210000000000).rd 8) (2 * columnBytes w.t)) (by revert w; decide +kernel)
  exact ⟨hq.1, hq.2.1, hq.2.2.1, hq.2.2.2.1, hq.2.2.2.2, n, segs, h, of_decide_eq_true c⟩

/-- base with another cluster 0. -/
def withCl (f : Cluster → Cluster) : State := base.setCluster 0 (f (base.cluster 0))

theorem witness_MatrixReads : (rowed 127 0).VectorFree ∧ (rowed 127 0).MayCommit ∧ (rowed 127 0).Free [6] [] ∧ ((rowed 127 0).rd 6).toNat ≤ 127 ∧
    (rowed 127 0).rowPending 0 0 127 = false ∧ (rowed 127 0).haltWaits = false ∧ (7 : Reg).toNat < (rowed 127 0).co.nregs ∧
    tyWidth ((0x60 : BitVec 7).extractLsb' 3 4).toNat = (rowed 127 0).co.width ∧
    (6 : Reg).toNat + 1 < (rowed 127 0).co.nregs ∧ (rowed 127 0).co.width = 32 ∧ 127 ∉ ((rowed 127 0).cluster 0).badRows ∧
    ∀ l ∈ [[127], []], 127 ∈ ((withCl fun c => { c with badRows := [127], upsets := l }).cluster 0).badRows ∧
      (127 ∈ ((withCl fun c => { c with badRows := [127], upsets := l }).cluster 0).upsets ↔ l ≠ []) := by
  have q : quiet (rowed 127 0) = true := by decide +kernel
  exact ⟨(quiet_ready q).2.2, (quiet_ready q).2.1, (quiet_ready q).1 _ _, by decide +kernel⟩

/-- A row that the unit's running job is to clear. -/
def clearing : State := (rowed 127 0).setCluster 0 { (rowed 127 0).cluster 0 with unit := ⟨none, some ⟨1, .zero, 7, 127, 1, base.who, 0, 0⟩, 0, none, none, false, 0⟩ }

theorem witness_MatrixReadsWait : clearing.VectorFree ∧ clearing.MayCommit ∧ clearing.Free [6] [] ∧ clearing.haltWaits = false ∧
    clearing.rowPending 0 7 127 = true ∧ (clearing.rd 6).toNat = 127 ∧ ∀ i ∈ [Instr.mread 7 6 6 0x60, .mreadPair 7 6 6],
      (rowRead i).any (fun r => r.ds.all (·.toNat < clearing.co.nregs) && r.w == clearing.co.width) = true := by
  have q : quiet clearing = true := by decide +kernel
  exact ⟨(quiet_ready q).2.2, (quiet_ready q).2.1, (quiet_ready q).1 _ _, by decide +kernel⟩

def zeroJob : Job := ⟨1, .zero, 7, 127, 1, base.who, 0, 0⟩
def writeJob : Job := ⟨1, .write [(0, 5), (255, 0)], 7, 127, 1, base.who, 0, 0⟩
def streamJob : Job := ⟨1, .stream [(scratchPa 0, 512)] someWeights [] [] (some []), 7, 127, 1, base.who, 0, 0⟩
def somePlane : Plane := ⟨someWeights, [], none, false⟩

theorem witness_MatrixUnitWorks :
    (∃ s : State, (s.cluster 0).unit.granted = none ∧ (s.cluster 0).unit.running = none ∧ s.arbiter 0 = some (0, 0, 0) ∧ (s.core 0).jobs = [zeroJob]) ∧
    base.arbiter 0 = none ∧
    (∀ n ∈ [0, 2048, 63488], ∃ s : State, (s.cluster 0).unit.granted = some streamJob ∧ (s.cluster 0).unit.shadow = some somePlane ∧
      (s.cluster 0).unit.filling = true ∧ (s.cluster 0).unit.filled = n ∧ s.fillHeld 0 someWeights n = false ∧
      s.firstFailing (someWeights.pa + n) (min 2048 (tileBytes 12 - n)) = none ∧ (tileBytes 12 ≤ n + 2048 ↔ n = 63488)) ∧
    (∃ s : State, (s.cluster 0).unit.granted = some streamJob ∧ (s.cluster 0).unit.filling = true ∧
      (s.cluster 0).unit.shadow = some { somePlane with w := { someWeights with pa := 0x200000000000 } } ∧
      s.fillHeld 0 { someWeights with pa := 0x200000000000 } 0 = true) ∧
    (∃ s : State, (s.cluster 0).unit.granted = some streamJob ∧ (s.cluster 0).unit.filling = false ∧ (s.cluster 0).unit.running = none) ∧
    (∃ s : State, (s.cluster 0).unit.running = some streamJob ∧ (s.cluster 0).unit.plane = some somePlane ∧ columnBytes 12 = 512 ∧
      (∀ a ∈ (List.range 512).map (fun o => runByte [(scratchPa 0, 512)] ((s.cluster 0).unit.row * 512 + o)), s.failing a = false)) ∧
    (∃ s : State, (s.cluster 0).unit.running = some streamJob ∧ (s.cluster 0).unit.plane = some { somePlane with bad := some 0 } ∧
      ({ somePlane with bad := some 0 } : Plane).bad.isSome = true) ∧
    (∃ s : State, (s.cluster 0).unit.running = some zeroJob ∧ zeroJob.start + (s.cluster 0).unit.row < 128) ∧
    (∃ s : State, (s.cluster 0).unit.running = some writeJob ∧ ([(0, (5 : BitVec 80)), (255, 0)].map (·.1)).Nodup) ∧
    ∃ s : State, (s.cluster 0).unit.running = some zeroJob ∧ zeroJob.count ≤ (s.cluster 0).unit.row := by
  refine ⟨⟨base.setCur { base.cur with jobs := [zeroJob] }, ?_⟩, by decide +kernel,
    fun n hn => ⟨withCl fun c => { c with unit := ⟨some streamJob, none, 0, none, some somePlane, true, n⟩ }, ?_⟩,
    ⟨{ (withCl fun c => { c with unit := ⟨some streamJob, none, 0, none, some { somePlane with w := { someWeights with pa := 0x200000000000 } }, true, 0⟩ }) with
        elapsed := 0 }, ?_⟩,
    ⟨withCl fun c => { c with unit := ⟨some streamJob, none, 0, none, none, false, 0⟩ }, ?_⟩,
    ⟨withCl fun c => { c with unit := ⟨none, some streamJob, 0, some somePlane, none, false, 0⟩ }, ?_⟩,
    ⟨withCl fun c => { c with unit := ⟨none, some streamJob, 0, some { somePlane with bad := some 0 }, none, false, 0⟩ }, ?_⟩,
    ⟨withCl fun c => { c with unit := ⟨none, some zeroJob, 0, none, none, false, 0⟩ }, ?_⟩,
    ⟨withCl fun c => { c with unit := ⟨none, some writeJob, 0, none, none, false, 0⟩ }, ?_⟩,
    ⟨withCl fun c => { c with unit := ⟨none, some zeroJob, 1, none, none, false, 0⟩ }, ?_⟩⟩ <;> first | (revert n; decide +kernel) | decide +kernel

/-- A copy of two elements of 8 bytes from s1's address, clipped to one of them where asked. -/
def descBytes (flags : Byte) : List Byte :=
  [0, 0, 2, 0, 0, 0, 0, 0xFC] ++ [0, 0, 3, 0, 0, 0, 0, 0xFC] ++ [3, 1, flags, 0, 0, 0, 0, 0] ++ List.replicate 8 0 ++ [2, 0, 0, 0] ++ List.replicate 28 0 ++
  [8] ++ List.replicate 47 0 ++ [8] ++ List.replicate 47 0 ++ List.replicate 24 0 ++ [1] ++ List.replicate 71 0

/-- base with D = 8, f32 elements, and such a descriptor at s6. -/
def copying : State := { rowed 0xFC00000000040000 0 with mem := memPut base.mem 0x40000 (descBytes 0) }

def ready (s' : State) (d : Reg) (c : CopyCommand) (ps : List (Nat × Nat)) : Bool :=
  calm s' && s'.enginePlace && !(s'.ended (Claims.copying s' ps)).commandHeld s'.ids d c

theorem ready_of {s' : State} {d : Reg} {c : CopyCommand} {ps : List (Nat × Nat)} (h : ready s' d c ps = true) : Claims.CopyReady s' d c ps := by
  simp only [ready, Bool.and_eq_true, Bool.not_eq_true'] at h
  exact ⟨calm_may h.1.1, h.1.2, h.2⟩

/-- A group of one, this coroutine, in group register 1. -/
def grouped : State := copying.setCo { copying.co with g := copying.co.g.set 1 ⟨0xFC00000000050000, 0, true, 0, 1, 0⟩ }

/-- The same with offsets of a register image in place of its addresses. -/
def imaged : State := { copying with mem := memPut copying.mem 0x40000 (List.replicate 16 0) }

/-- copying with 64 copies in its engine; and with a plane of its cluster that is being filled from 0x3_0000, where its descriptor, which v7
holds too, writes. -/
def fullEngine : State := copying.setCluster 0 { copying.cluster 0 with copies := List.replicate 64 (copying.newCopy 0 0 0) }
def fillingFrom : State :=
  let s := copying.setCluster 0 { copying.cluster 0 with unit := ⟨none, none, 0, none, some { somePlane with w := { someWeights with pa := 0x30000 } }, true, 0⟩ }
  s.setCo (s.co.vwrite 7 0 (descBytes 0))

theorem witness_CopyCommands : copying.VectorFree ∧ copying.Free [6] [9] ∧ copying.MayCommit ∧
    (∃ t x, copying.readDesc (copying.rd 6) = .ok t x ∧ Claims.CopyReady (t.setCo (t.co.setPend 9)) 9 (Claims.plain x) []) ∧
    (∃ t x, imaged.readDesc (imaged.rd 6) = .ok t x ∧ imaged.Free [6] [9] ∧ imaged.VectorFree ∧ (t.planCopy 0 9 x ⟨1, 7, none, some copying.co.vbytes⟩).1.status ≠ 2 ∧
      Claims.CopyReady (t.setCo ((t.co.legacyMask x).setPend 9)) 9 (.described x ⟨1, 7, none, some copying.co.vbytes⟩)
        ((imageGroups x).map fun g => (7 + 256 * g / copying.co.vbytes, 256 * g % copying.co.vbytes / 256)) ∧
      Claims.CopyReady (t.setCo (t.co.setPend 9)) 9 (.described x ⟨2, 7, some (copying.co.vread 7 0 copying.co.vbytes), none⟩) []) ∧
    (fullEngine.enginePlace = false ∧ fullEngine.Free [6] [9] ∧ accOk (fullEngine.readDesc (fullEngine.rd 6)) = true) ∧
    (∃ t x, fillingFrom.readDesc (fillingFrom.rd 6) = .ok t x ∧ ∀ s', s' = t.setCo (t.co.setPend 9) → s'.MayCommit ∧ s'.enginePlace = true ∧
      (s'.ended (Claims.copying s' [])).commandHeld s'.ids 9 (Claims.plain x) = true) ∧
    (∀ s', s' = fillingFrom.setCo (fillingFrom.co.setPend 9) → s'.MayCommit ∧
      (s'.ended s').offerCopies [(0, Desc.of (fillingFrom.co.vread 7 0 256))] = none) ∧
    ((7 : Reg).toNat + (0 : BitVec 3).toNat + 1 ≤ copying.co.nregs ∧ copying.co.nregs ≤ (8 : Reg).toNat) ∧
    Claims.CopyReady (copying.setCo (copying.co.setPend 9)) 9 (Claims.plain (Desc.of (copying.co.vread 7 0 256))) [] ∧
    Claims.CopyReady (copying.setCo (copying.co.setPend 9)) 9 (.registers 7 (copying.co.leadGroups 7 1) 0) [] ∧
    Claims.CopyReady (grouped.setCo (grouped.co.setPend 9)) 9 (.group 7 ⟨0xFC00000000050000, 0, true, 0, 1, 0⟩ (grouped.rd 1) 4 16) [] ∧
    copying.ext.openB = none ∧
    (∀ n ∈ [0, 1], ∃ s : State, s.ext.openB = some ⟨0, n⟩ ∧ (n = 1 → s.ext.sealedB.length < 16) ∧ s.MayCommit) ∧
    (copying.co.g[1]?.any fun g => !g.valid) = true ∧
    ((copying.ended copying).offerCopies [(0, Desc.of [])]).isSome = true ∧
    (∃ g, grouped.co.g[1]? = some g ∧ g.valid = true ∧ ∃ t bs, grouped.chunkRead (g.table + BitVec.ofNat 64 (8 * g.rank.toNat)) 8 = .ok t bs ∧
      leNat (bs.take 4) = grouped.co.cid.toNat ∧
      Claims.CopyReady (t.setCo { grouped.co.setPend 9 with g := grouped.co.g.set 1 { g with swaps := g.swaps + 1 } }) 9
        (.swap g (grouped.rd 1) 64 0 8 0) []) := by
  have q : quiet copying = true := by decide +kernel
  obtain ⟨t, x, h, c⟩ := ok_and (f := fun t x => decide ((t.planCopy 0 9 x ⟨1, 7, none, some copying.co.vbytes⟩).1.status ≠ 2) &&
      ready (t.setCo ((t.co.legacyMask x).setPend 9)) 9 (.described x ⟨1, 7, none, some copying.co.vbytes⟩)
        ((imageGroups x).map fun g => (7 + 256 * g / copying.co.vbytes, 256 * g % copying.co.vbytes / 256)) &&
      ready (t.setCo (t.co.setPend 9)) 9 (.described x ⟨2, 7, some (copying.co.vread 7 0 copying.co.vbytes), none⟩) [])
    (a := imaged.readDesc (imaged.rd 6)) (by decide +kernel)
  simp only [Bool.and_eq_true, decide_eq_true_eq] at c
  obtain ⟨t0, x0, h0, c0⟩ := ok_and (f := fun t x => ready (t.setCo (t.co.setPend 9)) 9 (Claims.plain x) [])
    (a := copying.readDesc (copying.rd 6)) (by decide +kernel)
  have qi : quiet imaged = true := by decide +kernel
  obtain ⟨tf, xf, hf, cf⟩ := ok_and (f := fun t x => calm (t.setCo (t.co.setPend 9)) && (t.setCo (t.co.setPend 9)).enginePlace &&
      ((t.setCo (t.co.setPend 9)).ended (Claims.copying (t.setCo (t.co.setPend 9)) [])).commandHeld t.ids 9 (Claims.plain x))
    (a := fillingFrom.readDesc (fillingFrom.rd 6)) (by decide +kernel)
  simp only [Bool.and_eq_true] at cf
  obtain ⟨t', bs, h', c'⟩ := ok_and (f := fun t bs => decide (leNat (bs.take 4) = grouped.co.cid.toNat) &&
      ready (t.setCo { grouped.co.setPend 9 with g := grouped.co.g.set 1 ⟨0xFC00000000050000, 0, true, 0, 1, 1⟩ }) 9
        (.swap ⟨0xFC00000000050000, 0, true, 0, 1, 0⟩ (grouped.rd 1) 64 0 8 0) [])
    (a := grouped.chunkRead 0xFC00000000050000 8) (by decide +kernel)
  simp only [Bool.and_eq_true, decide_eq_true_eq] at c'
  refine ⟨(quiet_ready q).2.2, (quiet_ready q).1 _ _, (quiet_ready q).2.1, ⟨t0, x0, h0, ready_of c0⟩,
    ⟨t, x, h, (quiet_ready qi).1 _ _, (quiet_ready qi).2.2, c.1.1, ready_of c.1.2, ready_of c.2⟩,
    ⟨by decide +kernel, free_of (by decide +kernel) _ _, by decide +kernel⟩,
    ⟨tf, xf, hf, fun s' e => by subst e; exact ⟨calm_may cf.1.1, cf.1.2, cf.2⟩⟩,
    fun s' e => by subst e; exact ⟨calm_may (by decide +kernel), by decide +kernel⟩, by decide +kernel,
    ready_of (by decide +kernel), ready_of (by decide +kernel), ready_of (by decide +kernel), by decide +kernel,
    fun n hn => ⟨withExt fun e => { e with openB := some ⟨0, n⟩, sealedB := List.replicate (16 - n) ⟨1, 1⟩ },
      rfl, by revert n; decide +kernel, calm_may (by revert n; decide +kernel)⟩, by decide +kernel, by decide +kernel,
    ⟨⟨0xFC00000000050000, 0, true, 0, 1, 0⟩, by decide +kernel, rfl, t', bs, h', c'.1, ready_of c'.2⟩⟩

/-- A copy of a kind with a status, of the coroutine of base. -/
def aCopy (kind status : Nat) : Copy := { base.newCopy 3 kind 9 with status := status, writes := [(0x20000, 7)] }

/-- A run of elements that the engine moves; what they read, and where they go. -/
def someWork (r : List (Word × Word × Nat)) : Work :=
  { copying.newWork with todo := (0xFC00000000020000, 0xFC00000000030000, 8) :: r, dests := [(0xFC00000000030000, 8)] }

def aWorker (r : List (Word × Word × Nat)) : Copy := { aCopy 0 0 with work := some (someWork r) }

/-- The descriptor, the same with a bound on its coordinates, and one without a dimension; and work whose first element moves, before
nothing, an element of another page, and one that cannot be read. -/
theorem witness_Descriptors : (∀ fl ∈ [(0 : Byte), 1], let x := Desc.of (descBytes fl)
      x.pref = false ∧ copying.rejects copying.engineSpace copying.co.grant x none none = false ∧ (x.inside = x.total ↔ fl = 0) ∧ x.elements ≠ []) ∧
    copying.rejects copying.engineSpace copying.co.grant (Desc.of []) none none = true ∧
    ∃ s : State, ∀ r ∈ [[], [(0xFC00000000040000, 0xFC00000000030008, 8)], [(0xFC00000000020020, 0xFC00000000030008, 8)]],
      (aWorker r).swap = none ∧ (aWorker r).kind ≠ 4 ∧ ((someWork r).todo.map elementPage).head? = some (0xFC0000000002, 0xFC0000000003) ∧
      elementPage (0xFC00000000020000, 0xFC00000000030000, 8) = (0xFC0000000002, 0xFC0000000003) ∧
      (∃ bs, s.copyRead ((aWorker r).space 0 (someWork r)) (someWork r).mem 0xFC00000000020000 8 = .ok (some bs)) ∧
      (∃ ps, s.copyDest ((aWorker r).space 0 (someWork r)) false (fun x => (someWork r).dests.any fun d => (x - d.1).toNat < d.2) 0xFC00000000030000 8 = .ok ps) ∧
      ∀ e ∈ r, elementPage e = (0xFC0000000002, 0xFC0000000003) → ∃ x, s.copyRead ((aWorker r).space 0 (someWork r)) (someWork r).mem e.1 e.2.2 = .error x := by
  refine ⟨fun fl h => by fin_cases h <;> decide +kernel, by decide +kernel,
    copying.setPkg 0 { copying.pkg 0 with failing := [0x20020] }, fun r hr => ⟨rfl, Nat.zero_ne_add_one 3, rfl, by decide +kernel, ?_, ?_, ?_⟩⟩
  · obtain ⟨x, h, c⟩ := exc_and (f := fun (x : Option (List Byte)) => x.isSome) (a := (copying.setPkg 0 { copying.pkg 0 with failing := [0x20020] }).copyRead
      ((aWorker r).space 0 (someWork r)) (someWork r).mem 0xFC00000000020000 8) (by revert r; decide +kernel)
    obtain ⟨bs, rfl⟩ := Option.isSome_iff_exists.mp c
    exact ⟨bs, h⟩
  · exact exc_ok (by revert r; decide +kernel)
  · intro e he hp
    have h : ((copying.setPkg 0 { copying.pkg 0 with failing := [0x20020] }).copyRead
      ((aWorker r).space 0 (someWork r)) (someWork r).mem e.1 e.2.2).isOk = false := by revert e r; decide +kernel
    revert h
    generalize State.copyRead _ _ _ _ _ = y
    cases y <;> simp [Except.isOk, Except.toBool]

def withCopies (l : List Copy) : State := withCl fun c => { c with copies := l }
/-- An exchange with a partner, of a shape, with work left or none. -/
def someSwap (partner : BitVec 32) (m : Nat) : Swap := ⟨0, 0, partner, 0, 0, 8, m, [], []⟩
def swapCopy (id : Nat) (partner : BitVec 32) (m : Nat) (w : Option Work) : Copy := { aCopy 5 0 with id := id, work := w, swap := some (someSwap partner m) }

/-- Two partners, in clusters 0 and 1, that have registered. -/
def swapping (m : Nat) (w : Option Work) : State :=
  (withCopies [{ swapCopy 3 0x2000 2 none with cid := 0 }]).setCluster 1 { Cluster.reset with copies := [{ swapCopy 4 0 m w with cid := 0x2000 }] }

/-- A chunk that waits to register a copy, whose destination another copy's range holds, since cycle 0 at cycle n. -/
def waitChunk : Chunk := { Chunk.fresh base.co with after := some (.copy 3 9 (Claims.plain (Desc.of (descBytes 0)))), since := some 0 }
def lockedOut (n : Nat) : State :=
  { (base.setCur { base.cur with waiting := some waitChunk }).setPkg 0 { base.pkg 0 with locks := [⟨9, 0x30000, 16, false, 0, true⟩] } with elapsed := n }

/-- A copy whose next element lies in the page of walkedPage's walk. -/
def askingWork : Work := { someWork [] with asid := 0, todo := [(0x100000, 0xFC00000000030000, 8)] }

/-- A copy with a write to package 1, and the same whose write is on its way. -/
def awayCopy : Copy := { aCopy 0 0 with writes := [(0x20000, 7), (2 ^ 46 + 0x20000, 8)] }
def sentCopy : Copy := { aCopy 0 0 with sent := true, away := [(4, 1)] }

theorem witness_CopyEngineWorks :
    (∀ n ∈ [4095, 4096], ((lockedOut n).core 0).waiting = some waitChunk ∧ waitChunk.since = some 0 ∧ (lockedOut n).elapsed = n ∧
      (lockedOut n).waitingHeld 0 waitChunk = false ∧ (lockedOut n).PlainChunk waitChunk ∧
      ({ (lockedOut n).commitWaiting 0 waitChunk with focus := 0 } : State).commandLacks 3 9 (Claims.plain (Desc.of (descBytes 0))) = true) ∧
    ((walkedPage.setCluster 0 { walkedPage.cluster 0 with copies := [{ aCopy 0 0 with work := some askingWork }] }).engineWait 0
      { aCopy 0 0 with work := some askingWork } askingWork).isSome = true ∧
    ((withCopies [aWorker []]).engineWait 0 (aWorker []) (someWork []) = none) ∧
    ((withCopies [awayCopy]).copy? 0 3 = some awayCopy ∧ awayCopy.sent = false ∧ ∃ w ∈ awayCopy.writes, paPkg w.1 ≠ 0 / 128) ∧
    ((withCopies [sentCopy]).copy? 0 3 = some sentCopy ∧ sentCopy.sent = true ∧ sentCopy.away ≠ []) ∧
    (((withCopies [{ aCopy 5 0 with swap := some (someSwap 0x100000 2) }]).setPkg 1 { base.pkg 1 with on := false }).partnerUp 0 (someSwap 0x100000 2) = false ∧
      (swapping 2 none).partnerUp 0 (someSwap 0x2000 2) = true) ∧
    (∀ k ∈ [0, 1, 2, 3, 4, 5], ∀ st ∈ [0, 1, 2, 3, 4, 5], let s := withCopies [aCopy k st];
      s.copy? 0 3 = some (aCopy k st) ∧ (aCopy k st).id = 3 ∧ (((s.cluster 0).copies.takeWhile (·.id != 3)).any (!·.started)) = false ∧
      (aCopy k st).away = [] ∧ (aCopy k st).whole = [] ∧ (aCopy k st).work = none ∧ (aCopy k st).bad = none ∧ (aCopy k st).token = none ∧
      (s.core (aCopy k st).who.core).running = some (aCopy k st).who.slot ∧ (aCopy k st).msg = none ∧
      ((aCopy k st).writes.all fun w => paPkg w.1 == 0) = true ∧ (s.pkg 0).on = true ∧
      ((s.core (aCopy k st).who.core).slot (aCopy k st).who.slot).gen = (aCopy k st).who.gen) ∧
    (((((withCopies [{ aCopy 0 0 with id := 2 }, aCopy 0 0]).cluster 0).copies.takeWhile (·.id != 3)).any (!·.started)) = true) ∧
    (∀ r ∈ [[], [(0xFC00000000040000, 0xFC00000000030008, 8)]],
      (((withCopies [aWorker r]).workOn 0 { aWorker r with started := true } (someWork r)).work.isSome ↔ r ≠ [])) ∧
    (∀ p ∈ [0x20000, 2 ^ 46], ({ aCopy 0 0 with token := some p } : Copy).token = some p ∧ (paPkg p = 0 ↔ p = 0x20000)) ∧
    (∀ n ∈ [63, 64], let s := (withCopies [{ aCopy 0 0 with msg := some 5 }]).setCur { base.cur with mailbox := List.replicate n ⟨0, 0, 0, 0⟩ }
      (s.core 0).mailbox.length = n ∧ (s.core 0).handler = none ∧ (s.core 0).running = some 0) ∧
    ((withCopies []).core 0).deliverable 0 { aCopy 3 0 with dsts := [0] } = true ∧
    ((withCopies []).core 0).deliverable 0 { aCopy 3 0 with dsts := [0], vreg := 8 } = false ∧
    (∀ m ∈ [2, 4], ∀ w ∈ [none, some (someWork [])], ((swapping m w).swapPartner (someSwap 0x2000 2)).any
        (fun x => decide (x.2.m = m ∧ x.1.work.isSome = w.isSome ∧ x.2.es = 8 ∧ x.2.p = 0 ∧ x.2.q = 0)) = true) ∧ clusterOf (cidCore 0x2000) ≠ 0 := by
  refine ⟨fun n hn => ?_, by decide +kernel, by decide +kernel, by decide +kernel, by decide +kernel, by decide +kernel, ?_, by decide +kernel, ?_,
    by decide +kernel, ?_, by decide +kernel, by decide +kernel, ?_, by decide +kernel⟩
  · unfold State.PlainChunk
    revert n
    decide +kernel
  · intro k hk st hst
    fin_cases hk <;> fin_cases hst <;> decide +kernel
  · intro r hr
    fin_cases hr <;> decide +kernel
  · intro n hn
    fin_cases hn <;> decide +kernel
  · intro m hm w hw
    fin_cases hm <;> fin_cases hw <;> decide +kernel

/-- Sizes 0, 1, 4,096 and 4,097; a misaligned table, a table that another register holds, and a table without the coroutine. -/
theorem witness_GroupRegisters : base.Free [1, 2] [] ∧ (base.rd 0).toNat = 0 ∧ ((withCo (·.wr 2 4097)).rd 2).toNat = 4097 ∧
    ((withCo (·.wr 2 4096)).rd 2).toNat = 4096 ∧ (base.rd 4).toNat % 64 ≠ 0 ∧ (base.rd 1).toNat % 64 = 0 ∧
    (∃ (s : State) (k : Nat) (g : Grp), k ≠ (2 : Reg).toNat % 8 ∧ s.co.g[k]? = some g ∧ g.valid = true ∧ g.table = s.rd 1) ∧
    (base.co.g.toList.all fun g => !g.valid) = true ∧
    (∃ t ms, base.readMembers (base.rd 1) 0 1 = .ok t ms ∧ base.co.cid ∈ ms) ∧
    (∃ t ms, (withByte 0x20000 4).readMembers (base.rd 1) 0 1 = .ok t ms ∧ (withByte 0x20000 4).co.cid ∉ ms) ∧ (base.co.g[7]?).isSome = true := by
  obtain ⟨t, ms, h, c⟩ := ok_and (f := fun _ ms => decide (base.co.cid ∈ ms)) (a := base.readMembers (base.rd 1) 0 1) (by decide +kernel)
  obtain ⟨t', ms', h', c'⟩ := ok_and (f := fun _ ms => decide ((withByte 0x20000 4).co.cid ∉ ms)) (a := (withByte 0x20000 4).readMembers (base.rd 1) 0 1) (by decide +kernel)
  refine ⟨base_ready.1 _ _, by decide +kernel, by decide +kernel, by decide +kernel, by decide +kernel, by decide +kernel,
    ⟨withCo fun c => { c with g := c.g.set 1 ⟨0xFC00000000020000, 0, true, 0, 1, 0⟩ }, 1, ⟨0xFC00000000020000, 0, true, 0, 1, 0⟩, by decide +kernel⟩,
    by decide +kernel, ⟨t, ms, h, by simpa using c⟩, ⟨t', ms', h', by simpa using c'⟩, by decide +kernel⟩

/-- A collective of the coroutine of base as rank 1 of 2, that waits for rank 0's packet. -/
def aColl (done : Bool) : Collective :=
  { base.newColl 0 ⟨1, 7, 1, 0, 9, false, 0, 0x60⟩ ⟨5, 0, true, 1, 2, 0⟩ [0, 0] with id := 3, done := done }
def aPacket : Packet := ⟨5, 0, 0, 0, 1, base.who, 0, 0, 0, 12, 0, 0, 0, 0, false, []⟩

theorem witness_CollectivesRun : grouped.VectorFree ∧ grouped.Free [] [9] ∧ grouped.MayCommit ∧ Claims.vok grouped ⟨1, 7, 1, 0, 9, false, 0, 0x60⟩ [7, 1] ∧
    (grouped.co.g[1]?.any (·.valid)) = true ∧ (grouped.co.g[2]?.any fun g => !g.valid) = true ∧
    (∃ t ms, grouped.readMembers 0xFC00000000050000 0 1 = .ok t ms ∧ ms.getD 0 0 = grouped.co.cid) ∧
    grouped.cur.bufferUsed + groupBytes grouped.co.vl.toNat (tyWidth 12) ≤ 262144 ∧
    (base.pkg 0).on = true ∧ base.mailboxOpen (pkgOf aPacket.sender.core) aPacket.tenant 0 = true ∧ ((base.core 0).slot 0).st ≠ .free ∧
    (aColl false).takes 0 aPacket = true ∧ (aColl false).ready aPacket = true ∧ aPacket.kind < 2 ∧
    base.cur.bufferUsed + groupBytes aPacket.elems.length (tyWidth aPacket.t.toNat) ≤ 262144 ∧
    262144 < (base.setCur { base.cur with colls := [{ aColl false with len := 70000, vtype := 12, t := 12 }] }).cur.bufferUsed ∧
    ((base.setCur { base.cur with colls := [aColl true] }).core 0).coll 3 = some (aColl true) ∧ (aColl true).done = true ∧ (aColl true).who.core = 0 := by
  have q : quiet grouped = true := by decide +kernel
  obtain ⟨t, ms, h, c⟩ := ok_and (f := fun _ ms => decide (ms.getD 0 0 = grouped.co.cid)) (a := grouped.readMembers 0xFC00000000050000 0 1) (by decide +kernel)
  exact ⟨(quiet_ready q).2.2, (quiet_ready q).1 _ _, (quiet_ready q).2.1, by unfold Claims.vok; decide +kernel, by decide +kernel, by decide +kernel,
    ⟨t, ms, h, by simpa using c⟩, by decide +kernel⟩

/-! ### The package: events of cores, walks, homes, launching, tenants, parking, management -/

/-- base with its core changed. -/
def withCur (f : Core → Core) : State := base.setCur (f base.cur)

/-- base with its coroutine gone from the core and slot 3 as given. -/
def idle (x : Slot) : State := withCur fun c => { (c.setSlot 0 { c.slot 0 with st := .suspended }).setSlot 3 x with running := none }

/-- base with its quantum over and another coroutine runnable. -/
def expired : State := withCur fun c => { (c.setSlot 1 { Slot.reset with st := .signalled }) with ext := { c.ext with chunks := 4096 } }

/-- A fetch ahead of a line that can be had, of one whose bytes fail, and of one whose page is not mapped. -/
theorem witness_CoreFetchesAhead : ∀ x ∈ [(base, 0xFC00000000010040, 0), (base, 0xFC0000000001013F, 0),
      (base.setPkg 0 { base.pkg 0 with failing := [0x10040] }, 0xFC00000000010040, 1), (withCo fun c => { c with pc := 0x100002 }, 0x100040, 2)],
    (x.1.core 0).running ≠ none ∧ (x.1.core 0).ahead = [] ∧ 1 ≤ (Claims.lineStart x.2.1 - Claims.lineStart (x.1.core 0).co.pc).toNat ∧
    (Claims.lineStart x.2.1 - Claims.lineStart (x.1.core 0).co.pc).toNat ≤ 256 ∧
    (match x.1.translate (x.1.spaceOf 0) .fetch (Claims.lineStart x.2.1) 64 with
      | .ok segs => !x.1.lineUnfit segs && !x.1.lineBarred 0 segs && (segBytes segs).any x.1.failing == decide (x.2.2 = 1)
      | .error _ => x.2.2 == 2) = true ∧ x.1.mustWalk { x.1.spaceOf 0 with ahead := true } (Claims.lineStart x.2.1) = false := by decide +kernel

/-- A page whose walk another core waits for. -/
theorem witness_CoreWaitsAhead : ∀ s, s = walkedPage.setCo { walkedPage.co with pc := 0x100002 } → (s.core 0).running ≠ none ∧ (s.core 0).ahead = [] ∧
    (Claims.lineStart 0x100040 - Claims.lineStart (s.core 0).co.pc).toNat = 64 ∧
    s.mustWalk { s.spaceOf 0 with ahead := true } (Claims.lineStart 0x100040) = true := by
  intro s hs
  subst hs
  decide +kernel

/-- A chunk that waits, and the same where core 1, which has read its line, has the sole grant. -/
def deferred (s : State) : State := s.setCur { s.cur with waiting := some storing.cur.chunk }

/-- The same with an instruction of it in the vector queue; and one that ends with a store to another package's future word, or with a
registration that locks hold up. -/
def deferredQueue : State := (deferred base).setCur { (deferred base).cur with vq := [{ vadd3 with early := true }] }
def deferredAfter (a : After) : State := (lockedOut 0).setCur { (lockedOut 0).cur with waiting := some { storing.cur.chunk with after := some a } }

theorem witness_CoreChunksWork : base.cur.waiting = none ∧ ((deferred base).core 0).waiting = some storing.cur.chunk ∧
    (deferred base).soleBlocks 0 (some 0) [0] = false ∧ (deferred base).PlainChunk storing.cur.chunk ∧ storing.cur.chunk.mloads = [] ∧
    storing.cur.chunk.after = none ∧ (deferred base).cur.vq = [] ∧
    ((deferred soleElsewhere).core 0).waiting = some storing.cur.chunk ∧ (deferred soleElsewhere).soleBlocks 0 (some 0) storing.cur.chunk.wrote = true ∧
    ((deferredQueue.core 0).waiting = some storing.cur.chunk ∧ ∃ e ∈ (deferredQueue.core 0).vq, e.early = true) ∧
    (∀ x ∈ [(After.seal, false), (.copy 3 9 (Claims.plain (Desc.of (descBytes 0))), true)], ∀ k, k = { storing.cur.chunk with after := some x.1 } →
      ((deferredAfter x.1).core 0).waiting = some k ∧ (deferredAfter x.1).soleBlocks 0 (some 0) k.wrote = false ∧ (deferredAfter x.1).cur.vq = [] ∧
      (deferredAfter x.1).PlainChunk k ∧ k.mloads = [] ∧
      ({ (deferredAfter x.1).commitWaiting 0 k with focus := 0 } : State).afterHeld x.1 = x.2) ∧
    (∃ s : State, (s.pkg 0).sole = none ∧ (s.pkg 0).soleReqs = [0] ∧ (s.core 0).ext.sole = true ∧ (s.core 0).running ≠ none) ∧
    (∃ s : State, s.agenda = [.upset (.speculative 0 false)] ∧ (s.core 0).running ≠ none ∧ (s.core 0).chunk.reads ≠ []) ∧
    (∃ s : State, s.agenda = [.upset (.speculative 0 true)] ∧ (s.core 0).running ≠ none ∧ (s.core 0).waiting = some storing.cur.chunk ∧
      storing.cur.chunk.wrote ≠ []) ∧
    ∃ s : State, s.agenda = [.upset (.speculative 0 false)] ∧ (s.core 0).chunk.reads = [] ∧ (s.core 0).chunk.wrote = [] := by
  refine ⟨by decide +kernel, by decide +kernel, by decide +kernel, ⟨by decide +kernel, by decide +kernel, by decide +kernel⟩, by decide +kernel, by decide +kernel,
    by decide +kernel, by decide +kernel, by decide +kernel, by decide +kernel, fun x hx k hk => ?_,
    ⟨(withExt fun e => { e with sole := true }).setPkg 0 { base.pkg 0 with soleReqs := [0] }, ?_⟩,
    ⟨{ withCur fun c => { c with chunk := { c.chunk with reads := [0x200] } } with agenda := [.upset (.speculative 0 false)] }, ?_⟩,
    ⟨{ deferred base with agenda := [.upset (.speculative 0 true)] }, ?_⟩,
    ⟨{ base with agenda := [.upset (.speculative 0 false)] }, ?_⟩⟩
  · subst hk
    unfold State.PlainChunk
    revert x
    decide +kernel
  all_goals decide +kernel

/-- base with its quantum over, its slot 3 in the refill after slots 5 as given, and quiet since cycle n at cycle 800,000,000. -/
def refillingAfter (l : List Nat) (full : Bool) : State := withCur fun c => { c with
  running := none, refills := l ++ [3]
  slots := [(3, { Slot.reset with st := .refilling, full := full, size := if l = [] then 1024 else 16 }), (5, { Slot.reset with st := .refilling, size := 2048 }),
    (6, { Slot.reset with st := .signalled, size := 195584 })] }

def quietSince (n : Nat) : State :=
  { (withCur fun c => { c with running := none, slots := [(3, { Slot.reset with st := .suspended, wait := .register 3 })], quietAt := some n }) with elapsed := 800000000 }

theorem witness_CoreEventsWork :
    (∃ s : State, (s.core 0).running = some 0 ∧ (s.core 0).co.cont = 0 ∧ (s.core 0).co.quantum ≠ 0 ∧ (s.core 0).co.quantum.toNat ≤ (s.core 0).ext.chunks ∧
      (s.core 0).contended = false) ∧
    (∃ s : State, ((s.core 0).running = some 0 ∧ (s.core 0).co.cont = 0 ∧ (s.core 0).co.quantum ≠ 0 ∧ (s.core 0).co.quantum.toNat ≤ (s.core 0).ext.chunks ∧
      (s.core 0).contended = true ∧ (s.core 0).vq = [] ∧ (s.core 0).ext.vpend = []) ∧ ∃ u, ({ s with focus := 0 } : State).commit 0 = some u) ∧
    (∃ s : State, (s.core 0).running = none ∧ (s.pkg 0).live = true ∧ (s.core 0).nextSlot = some 3 ∧ ((s.core 0).slots.map (·.1)).Nodup ∧
      ((s.core 0).slot 3).wait = .nothing ∧ ((s.core 0).slot 3).cacheError = false ∧ ((s.core 0).slot 3).inMem = true ∧ s.contextError 0 3 = none) ∧
    (∀ l ∈ [[], [5]], ((refillingAfter l true).core 0).refills = l ++ 3 :: [] ∧ (((refillingAfter l true).core 0).slot 3).st = .refilling ∧
      ((refillingAfter l true).core 0).spilling = [] ∧ (((refillingAfter l true).core 0).slot 3).full = true) ∧
    (∀ l ∈ [[], [5]], ∀ k ∈ l, ∀ c, c = (refillingAfter l false).core 0 → (c.slot k).st = .refilling ∧ (c.slot k).full = false ∧
      (c.slot k).size ≤ 196608 ∧ 196608 < c.cacheUsed + ((c.slot k).size + 63) / 64 * 64 ∧ ∀ x ∈ c.slots, x.2.st = .suspended → x.2.inMem = true) ∧
    (∀ l ∈ [[], [5]], ∀ c, c = (refillingAfter l false).core 0 → (c.slot 3).full = false ∧ (c.slot 3).size ≤ 196608 ∧ (c.slot 3).cacheError = false ∧
      (refillingAfter l false).contextError 0 3 = none ∧ c.cacheUsed + ((c.slot 3).size + 63) / 64 * 64 ≤ 196608) ∧
    (∀ n ∈ [0, 100000001], ((quietSince n).core 0).isQuiet = true ∧ ((quietSince n).core 0).quiet = false ∧ ((quietSince n).core 0).wdog ≠ 0 ∧
      ((quietSince n).core 0).quietAt = some n ∧ (((quietSince n).core 0).wdog.toNat ≤ (quietSince n).elapsed - n ↔ n = 0)) ∧
    (∃ s : State, (s.core 0).wdog = 0) ∧ (base.prefetchable 0 0x40000 = some 0x600 ∧ (base.core 0).prefetch = []) ∧
    ∃ s : State, (0x40000 / 128, true) ∈ (s.core 0).prefetch := by
  refine ⟨⟨withExt fun e => { e with chunks := 4096 }, by decide +kernel⟩, ⟨expired, by decide +kernel, opt_some (by decide +kernel)⟩,
    ⟨idle { Slot.reset with st := .signalled, inMem := true }, ?_⟩, ?_, fun l hl k hk c hc => ?_, fun l hl c hc => ?_, ?_, ⟨withCur fun c => { c with wdog := 0 }, ?_⟩, ?_,
    ⟨withCur fun c => { c with prefetch := [(0x800, true)] }, ?_⟩⟩ <;> first | decide +kernel | (subst hc; revert k l; decide +kernel) | (subst hc; revert l; decide +kernel)

/-- base at the start of a chunk, with a place to trap to, struck in s5. -/
def struck : State :=
  let c := { base.co with tvec := base.co.pc }
  (base.setCur { base.cur with co := c, chunk := Chunk.fresh c }).upset (.register 0 0 5)

/-- R367: an error in s5, which held the same at the chunk's start, makes it read zero and raises cause 8 at the chunk's first
head with etval 0; where the chunk has written s5, the chunk only starts again. -/
theorem test_register_error : (after (.addi 6 5 1) struck).co.ecause = 8 ∧ (after (.addi 6 5 1) struck).co.etval = 0 ∧
    (after (.addi 6 5 1) struck).co.rd 5 = 0 ∧ (after (.addi 6 5 1) (struck.wr 5 1)).co = struck.co := by decide +kernel

/-- base with another package 0. -/
def withPkg (f : Pkg → Pkg) : State := base.setPkg 0 (f (base.pkg 0))

/-- An ASID table at 0x5_0000 with ASID 1 of tenant 0, whose root at 0x6_0000 has level-0 entries as given; walks in progress, and waiting. -/
def rooted (w : List Walk) (q : List (Asker × BitVec 14 × Word)) (l : List Byte) : State :=
  { withPkg (fun p => { p with asidbase := 0x50000, walks := w, walkq := q }) with
    mem := memPut (memPut base.mem 0x50010 ([0, 0, 6] ++ List.replicate 12 0 ++ [0x80])) 0x60000 l }
def aWalk (level : Nat) : Walk := ⟨[.core 0, .engine 0], 1, 0x12345, level, 0x60000⟩

/-- A walk answers with a leaf, the next table, or nothing. -/
def walked : WalkRead → Nat
  | .leaf _ => 0
  | .next _ => 1
  | .miss _ => 2

theorem witness_WalksAndInvalidations : isAlias (0xFC00000000000000 : Word) = true ∧
    (((rooted [] [] []).pkg 0).walks.find? (·.serves 1 0x12345) = none ∧ (256 ≤ ((rooted (List.replicate 256 ⟨[.core 1], 2, 0, 0, 0⟩) [] []).pkg 0).walks.length) ∧
      ((rooted (List.replicate 256 ⟨[.core 1], 2, 0, 0, 0⟩) [] []).pkg 0).walks.find? (·.serves 1 0x12345) = none) ∧
    ((rooted [] [] []).rootOf 0 1 0).isOk = true ∧ ((rooted [] [] []).rootOf 0 2 0).isOk = false ∧
    (((rooted [{ aWalk 0 with askers := [.core 1] }] [] []).pkg 0).walks.find? (·.serves 1 0x12345) = some { aWalk 0 with askers := [.core 1] } ∧
      ∀ a ∈ ({ aWalk 0 with askers := [.core 1] } : Walk).askers, a.lead ≠ 0) ∧
    (((rooted [aWalk 3] [(.core 0, 1, 0)] []).pkg 0).walkq = [(.core 0, 1, 0)] ∧
      (∀ x ∈ ((rooted [aWalk 3] [(.core 0, 1, 0)] []).pkg 0).walks, x.serves 1 0 = true → x.serves 1 0x12345 = true) ∧
      ((rooted [aWalk 3] [(.core 0, 1, 0)] []).rootOf 0 1 0).isOk = true) ∧
    (∀ x ∈ [(rooted [aWalk 3] [(.core 0, 1, 0)] (List.replicate 8 0 ++ [0x1F, 0, 7]), aWalk 3, 0), (rooted [aWalk 0] [] [1, 0, 7], aWalk 0, 1), (rooted [aWalk 0] [] [], aWalk 0, 2)],
      (x.1.pkg 0).walks.find? (·.serves 1 0x12345) = some x.2.1 ∧ (∃ a ∈ x.2.1.askers, a.lead = 0) ∧ walked (x.1.walkRead 0 1 0x12345 x.2.1.level x.2.1.table_) = x.2.2) ∧
    ((base.pkg 0).tlbinv.length < 64 ∧ base.inWindow 0 0 0x20000 32 = true) ∧
    (∃ s : State, ((s.pkg 0).tlbinv = [(none, 0x12345, 0, 0x20000)] ∧ (s.core 0).running ≠ none ∧ (s.core 0).waiting = none ∧
        ∃ x ∈ (s.core 0).chunk.pages, Claims.reachesAsid s 0 none 0 x.1 = true) ∧ (∀ n, n / 128 = 0 →
      (s.cluster n).copies = [] ∧ (s.cluster n).unit.granted = none ∧ (s.cluster n).unit.running = none) ∧ ∀ g, pkgOf g = 0 → (s.core g).jobs = []) := by
  refine ⟨by decide +kernel, by decide +kernel, by decide +kernel, by decide +kernel, by decide +kernel, by decide +kernel, ?_, by decide +kernel,
    ⟨(withPkg fun p => { p with tlbinv := [(none, 0x12345, 0, 0x20000)] }).setChunk { base.cur.chunk with pages := [(0, 1)] }, by decide +kernel,
      fun n _ => ?_, fun g _ => ?_⟩⟩
  · decide +kernel
  · exact tab_all (P := fun c : Cluster => c.copies = [] ∧ c.unit.granted = none ∧ c.unit.running = none) (by decide) (by decide +kernel) n
  · exact tab_all (P := fun c : Core => c.jobs = []) (by decide) (by decide +kernel) g

/-- base with s9 pending. -/
def awaited : State := withCo (·.setPend 9)

theorem served_base (pa n : Nat) (h : pa = 0x20000 ∨ pa = 0x2007F) (hn : n ∈ [1, 2, 4, 8]) : Claims.Served awaited base.who 0 pa n := by
  unfold Claims.Served
  simp only [List.mem_cons, List.not_mem_nil, or_false] at hn
  rcases h with rfl | rfl <;> rcases hn with rfl | rfl | rfl | rfl <;> decide +kernel

/-- A request of the coroutine of base to make a child, by address or in a tenant that is not there. -/
def aSpawn (kind : Nat) (tenant : BitVec 6) : SpawnReq :=
  { parent := base.who, reg := 9, kind := kind, cid := 0, target := 0, pc := 0, s1 := 0, s2 := 0, stage := 0, vtype := 0, cls := 0, ceil := 0, asid := 0,
    tenant := tenant, grant := false, after := [], probes := [], failed := false }

theorem witness_HomesServeRequests : Claims.Awaits awaited base.who 9 ∧ (Claims.Served awaited base.who 0 0x2007F 8 ∧ Claims.Served awaited base.who 0 0x20000 8) ∧
    Claims.Unwatched awaited 0x20000 8 ∧
    (((awaited.core 0).slot 0).gen ≠ (⟨0, 0, 1⟩ : Who).gen ∧ awaited.mmioRead 0x2007F = none ∧
      (awaited.pkg 1).on = true ∧ awaited.readBusy (2 ^ 46 + 0x10000000) 8 = false ∧ awaited.admits 0 0 (2 ^ 46 + 0x10000000) 8 = false) ∧
    (∃ e, awaited.extOf base.who = some e) ∧
    (∃ s : State, ∃ e, s.extOf base.who = some e ∧ (s.pkg 1).on = true ∧ s.bankBusy base.who 1 0 = false ∧ e.fencets = [] ∧ e.fence = some [(1, 0)]) ∧
    (∃ s : State, ∃ e, s.extOf base.who = some e ∧ Claims.Awaits s base.who 9 ∧
      (s.pkg 1).on = true ∧ s.bankBusy base.who 1 0 = false ∧ e.fencets = [(9, [(1, 0)], none)] ∧ e.lost = []) ∧
    (∃ s : State, s.flight[0]? = some (.remoteLoadAtHome base.who 9 [(2 ^ 46, 8, [])] false 0 0) ∧ pkgOf base.who.core ≠ paPkg (2 ^ 46)) ∧
    (∃ s : State, s.flight[0]? = some (.remoteWriteAtHome base.who (2 ^ 46) 8 1 ⟨0, 0, []⟩) ∧ pkgOf base.who.core ≠ paPkg (2 ^ 46)) ∧
    ((memWord awaited.mem 0x20000).getLsbD 63 = false ∧ awaited.deferredAt 0x20000 < 256) ∧
    (memWord (withByte 0x20007 0x80).mem 0x20000).getLsbD 63 = true ∧
    256 ≤ (withPkg fun p => { p with deferred := List.replicate 256 ⟨0x20000, base.who, 9⟩ }).deferredAt 0x20000 ∧ awaited.released [] = true ∧
    ((awaited.pkg 0).on = true ∧ awaited.mailboxOpen 0 0 0x4000 = false ∧ awaited.mailboxOpen 0 0 0x3C00 = true ∧ (awaited.core 0).mailbox.length < 64 ∧
      (awaited.cluster 0).leaving = false) ∧
    64 ≤ ((withCur fun c => { c with mailbox := List.replicate 64 ⟨0, 0, 0, 0⟩ }).core 0).mailbox.length ∧
    ((withCl fun c => { c with leaving := true }).cluster 0).leaving = true ∧
    base.spawnPlace (aSpawn 0 0) = some (0, 1) ∧ base.spawnPlace (aSpawn 4 5) = none ∧ base.released (aSpawn 0 0).after = true ∧ (aSpawn 0 0).probes = [] ∧
    (aSpawn 0 0).failed = false ∧ (awaited.copyOf 0 = none ∧ awaited.flight = [] ∧ (base.extOf base.who).isSome = true ∧ posted.flight = []) ∧
    (base.post (.remoteWriteAtHome base.who (2 ^ 46) 8 1 ⟨0, 4, []⟩)).released [4] = false := by
  refine ⟨by unfold Claims.Awaits; decide +kernel, ⟨served_base _ _ (.inr rfl) (by simp), served_base _ _ (.inl rfl) (by simp)⟩,
    by unfold Claims.Unwatched; decide +kernel, by decide +kernel, opt_some (by decide +kernel),
    ⟨withExt fun e => { e with fence := some [(1, 0)] }, _, rfl, by decide +kernel⟩,
    ⟨awaited.setExt { awaited.ext with fencets := [(9, [(1, 0)], none)] }, _, rfl, by unfold Claims.Awaits; decide +kernel, by decide +kernel⟩,
    ⟨base.post (.remoteLoadAtHome base.who 9 [(2 ^ 46, 8, [])] false 0 0), by decide +kernel⟩,
    ⟨base.post (.remoteWriteAtHome base.who (2 ^ 46) 8 1 ⟨0, 0, []⟩), by decide +kernel⟩, by decide +kernel⟩

/-- base with a queue 2 of tenant 0 as given, and the count of its token. -/
def queueing (x : Queue) (n : Byte) : State := (withByte 0x20000 n).setQueue 0 0 2 x
def aQueue : Queue := { Queue.reset with qbase := 0x40000, ctl := 0x8000000000000001, qtok := 0x20000 }
/-- An entry for cluster 0 with one instance, and one with class 3. -/
def anEntry (cls : Byte) : List Byte := List.replicate 16 0 ++ [1, 0, 0, 0, 1, 0, 0, 0, cls] ++ List.replicate 39 0

/-- The queue with its token at n, with its entries at 0x4_0000 as given, and failing codewords. -/
def entered (n : Byte) (e : List Byte) (bad : List Pa) : State :=
  let s := queueing aQueue n
  { s.setPkg 0 { s.pkg 0 with failing := bad } with mem := memPut s.mem 0x40000 e }

theorem witness_LaunchQueuesWork :
    (((16 : Word).extractLsb' 0 5).toNat ≤ 16 ∧ (0x8000000000000010 : Word).getLsbD 63 = true ∧ (base.queue 0 0 2).ctl.getLsbD 63 = false) ∧
    (Claims.TokenOpen base 0 0 0x20000 ∧ base.inWindow 0 0 0x10000000 8 = false ∧ (base.tenant 0 0).hsiga = 0) ∧
    (∃ s : State, (s.tenant 0 0).hsiga = 0x20000 ∧ Claims.TokenOpen s 0 0 0x20000) ∧
    (∀ n ∈ [(0 : Byte), 2, 3], Claims.TokenOpen (queueing aQueue n) 0 0 aQueue.qtok.toNat ∧ ((queueing aQueue n).queue 0 0 2) = aQueue ∧
      ((memWord (queueing aQueue n).mem aQueue.qtok.toNat).extractLsb' 0 32).toInt = n.toNat ∧
      aQueue.ctl.getLsbD 63 = true ∧ aQueue.head = none ∧ aQueue.qhead.toNat = 0 ∧ (queueing aQueue n).failing aQueue.qtok.toNat = false ∧
      (2 ^ (aQueue.ctl.extractLsb' 0 5).toNat : Int) = 2) ∧
    (∀ x ∈ [(anEntry 0, ([] : List Pa)), (anEntry 3, []), (anEntry 0, [0x40020])], ∀ s, s = entered 1 x.1 x.2 →
      (s.queue 0 0 2) = aQueue ∧ ((memWord s.mem aQueue.qtok.toNat).extractLsb' 0 32).toInt = 1 ∧ s.inWindow 0 0 0x40000 64 = true ∧
      s.admits 0 0 0x40000 64 = true ∧ (s.pkg 0).on = true ∧ s.readBusy 0x40000 64 = false ∧ memBytes s.mem 0x40000 64 = x.1 ∧
      ((List.range 64).any fun i => s.failing (0x40000 + i)) = (x.2 != []) ∧
      ((entryTokens x.1).all fun y => match s.translate (aQueue.space 0 0) y.1 (BitVec.ofNat 64 y.2) 8 with
        | .error m => m.1.bad.isNone
        | .ok _ => true) = true ∧
      (base.entryReason 0 0 aQueue x.1 = if x.1 = anEntry 3 then some 1 else none)) ∧
    (∃ s : State, ∃ x, s.queue 0 0 2 = x ∧ x.ctl.getLsbD 63 = true ∧ x.head = none ∧ s.inWindow 0 0 x.qbase.toNat 64 = false ∧
      ((memWord s.mem x.qtok.toNat).extractLsb' 0 32).toInt = 1) ∧
    (∀ n ∈ [(0 : Byte), 1], ∀ s, s = queueing { aQueue with head := some (anEntry 0), after := [0x20000] } n → (s.queue 0 0 2).head = some (anEntry 0) ∧
      (s.queue 0 0 2).eligible = none ∧ s.failing 0x20000 = false ∧
      ((memWord s.mem 0x20000).extractLsb' 0 32).toInt = n.toNat ∧ 0x20000 ∈ (s.queue 0 0 2).after ∧ s.homeOf 0x20000 ≠ .nowhere ∧
      (s.pkg (paPkg 0x20000)).on = true ∧ s.admits 0 0 0x20000 8 = true ∧ (memWord s.mem 0x20000).getLsbD 51 = false ∧
      (memWord s.mem 0x20000).getLsbD 48 = false) ∧
    (∃ s : State, (s.tenant 0 0).bind = none ∧ (s.tenant 0 0).select = some 2 ∧ (s.queue 0 0 2).head = some (anEntry 0)) ∧
    ∃ s : State, (s.tenant 0 0).bind = some ⟨2, anEntry 0, 0, [0]⟩ ∧ ∃ g k, s.firstRoom (s.distributorScan 0 0 [0]) = some (g, k) := by
  refine ⟨by decide +kernel, ⟨by unfold Claims.TokenOpen; decide +kernel, by decide +kernel⟩,
    ⟨base.setTenant 0 0 { base.tenant 0 0 with hsiga := 0x20000 }, by decide +kernel, by unfold Claims.TokenOpen; decide +kernel⟩,
    fun n hn => ?_, fun x hx s hs => ?_, ⟨queueing { aQueue with qbase := 0x10000000 } 1, _, rfl, by decide +kernel⟩, fun n hn s hs => ?_,
    ⟨queueing { aQueue with head := some (anEntry 0), eligible := some 0 } 0, by decide +kernel⟩,
    ⟨base.setTenant 0 0 { base.tenant 0 0 with bind := some ⟨2, anEntry 0, 0, [0]⟩ }, by decide +kernel, ?_⟩⟩
  · unfold Claims.TokenOpen
    revert n
    decide +kernel
  · subst hs
    revert x
    decide +kernel
  · subst hs
    revert n
    decide +kernel
  · obtain ⟨⟨g, k⟩, h⟩ := opt_some (a := (base.setTenant 0 0 { base.tenant 0 0 with bind := some ⟨2, anEntry 0, 0, [0]⟩ }).firstRoom
      ((base.setTenant 0 0 { base.tenant 0 0 with bind := some ⟨2, anEntry 0, 0, [0]⟩ }).distributorScan 0 0 [0])) (by decide +kernel)
    exact ⟨g, k, h⟩

theorem witness_SlotCommandsAndRegisters :
    (∀ st ∈ [SlotState.suspended, .spilled, .signalled, .refilling, .evicted, .halted], let s := idle { Slot.reset with st := st };
      (s.core 0).running ≠ some 3 ∧ ((s.core 0).slot 3).st = st) ∧
    (((base.core 0).running = some 0 ∧ (base.core 0).vq = [] ∧ (base.core 0).ext.vpend = [] ∧ (base.core 0).co.lpend = false ∧ (base.core 0).co.cont = 0 ∧
      (base.core 0).ext.ended = false ∧ ((base.core 0).slot 0).wait = .nothing) ∧ ∃ u, (base.setCore 0 { base.core 0 with evicting := false }).commit 0 = some u) ∧
    ((withCo fun c => { c with cont := 1 }).core 0).co.cont = 0 + 1 ∧
    (base.failingIn 0 [((base.core 0).saveArea 3, 0x40), ((base.core 0).saveArea 3 + 0x140, 0xD0)] = none) ∧
    (memWord (withByte ((base.core 0).saveArea 3 + 0x17F) 0x20).mem ((base.core 0).saveArea 3 + 0x178)).getLsbD 61 = true ∧
    ((∀ y ∈ (base.core 1).slots, y.2.st = .free) ∧ (∃ y ∈ (base.core 0).slots, y.2.st ≠ .free)) ∧
    ((withCur fun c => { c with colls := [aColl false] }).core (0 * 8 + 0)).colls ≠ [] ∧
    (∀ j, j < 8 → (base.core (0 * 8 + j)).colls = []) ∧
    (∀ vf ∈ [none, some (0 : BitVec 6)], base.hostReaches vf 0x300008100020 = true) ∧
    (base.mmioHeld 0 0x300008100020 = false ∧ base.regAt 0x300000000100 = .cluster 0 0x100 ∧ base.regAt 0x300000000110 = .cluster 0 0x110 ∧
      base.regAt 0x300008100020 = .tenant 0 0x20 ∧ base.regAt 0x300008100030 = .tenant 0 0x30 ∧ base.regAt 0x300008500080 = .host 0 0x80 ∧
      base.regAt 0x300008600000 = .park 0 0) ∧
    (base.hostReaches none 0x300008101020 = true ∧ base.mmioHeld 0 0x300008101020 = false ∧ base.regAt 0x300008101020 = .queue 0 0 0x20 ∧
      base.hostReaches (some 0) 0x300008500088 = true ∧ base.mmioHeld 0 0x300008500088 = false ∧ base.regAt 0x300008500088 = .host 0 0x88) := by
  refine ⟨fun st h => ?_, ⟨by decide +kernel, opt_some (by decide +kernel)⟩, by decide +kernel, by decide +kernel, by decide +kernel, by decide +kernel,
    by decide +kernel, fun j _ => ?_, by decide +kernel, by decide +kernel, by decide +kernel⟩
  · fin_cases h <;> decide +kernel
  · exact tab_all (P := fun c : Core => c.colls = []) (by decide) (by decide +kernel) _

/-- A configuration of clusters, with an ASID whose root is at 0x8000, new granary memory and flash. -/
def aConfig (set : BitVec 128) : TenantCfg := { (base.tenant 0 1).cfg with
  clset := set, windows := [(0, 0x10000000), (0x200000000000, 0x10000)], asids := [(9, 0x8000)], table := some 0x50000, deep := [(0, 0x10000)] }

theorem witness_TenantsAndResets : (base.inSet 0 0 0 = true ∧ base.inSet 0 1 5 = false ∧ (aConfig 32).clset.getLsbD 5 = true) ∧
    (base.configOk 0 1 (aConfig 32) = true ∧ base.configOk 0 1 { aConfig 32 with asids := [] } = true ∧ base.configOk 0 1 (aConfig 1) = false) ∧
    ((base.pkg 0).retired = [] ∧ (base.tenant 0 1).cfg.asids = [] ∧ (base.tenant 0 1).cfg.windows = [] ∧ Memory.wf base.mem = true) ∧ (∀ q, (base.pkg q).watches = []) ∧
    (∀ b, base.failing b = false) ∧
    ((∀ w ∈ (aConfig 32).deep, w.1 < 16000000000000 ∧ w.1 + w.2 ≤ 16000000000000) ∧
      (∃ w ∈ (aConfig 32).windows, w.1 ≤ 0x200000000000 ∧ 0x200000000000 < w.1 + w.2) ∧ (base.pkg 0).granary = [] ∧
      ((0x200000000000, 0x1000, 1) ∈ ((withPkg fun p => { p with granary := [(0x200000000000, 0x1000, 1)] }).pkg 0).granary)) ∧
    (Claims.ClusterEmpty base 1 ∧ (base.cluster 1).leaving = false ∧ (base.cluster 1).swsave = 0 ∧ (base.cluster 1).saved = [] ∧
      base.clusterFused 1 = false ∧ (base.cluster 1).tenant ≠ 1) ∧
    (withPkg fun p => { p with fused := [8, 9, 10, 11, 12, 13, 14, 15] }).clusterFused 1 = true ∧
    (∀ n ∈ [0, 1], ∃ s : State, (s.cluster 1).leaving = true ∧ (s.cluster 1).since = some n ∧ (s.cluster 1).evicted = [] ∧ (70000 < s.elapsed - n ↔ n = 0)) ∧
    ((11 : Word).extractLsb' 0 5).toNat < 12 ∧ 26 < ((27 : Word).extractLsb' 0 5).toNat ∧ 12 ≤ ((12 : Word).extractLsb' 0 5).toNat ∧
    ((26 : Word).extractLsb' 0 5).toNat ≤ 26 := by
  refine ⟨by decide +kernel, by decide +kernel, by decide +kernel, fun q => tab_all (P := fun y : Pkg => y.watches = []) (by decide) (by decide +kernel) q,
    fun b => ?_, by decide +kernel,
    ⟨⟨by decide +kernel, by decide +kernel, by decide +kernel, fun j hj => ?_⟩, by decide +kernel⟩, by decide +kernel,
    fun n hn => ⟨{ base.setCluster 1 { Cluster.reset with leaving := true, since := some n } with elapsed := 70001 }, by revert n; decide +kernel⟩, by decide⟩
  · have q : (base.pkg (paPkg b)).failing = [] ∧ (base.pkg (paPkg b)).cached = [] ∧ (base.pkg (paPkg b)).cxlDown = Vector.replicate 2 false :=
      tab_all (P := fun y : Pkg => y.failing = [] ∧ y.cached = [] ∧ y.cxlDown = Vector.replicate 2 false) (by decide) (by decide +kernel) _
    have d : base.linkDown b = false := by
      unfold State.linkDown
      split <;> simp [q]
    simp [State.failing, State.memoryFails, State.cacheFails, d, q]
  · interval_cases j <;> decide +kernel

/-- base with aperture 0 of tenant 0 open at 0. -/
def hosted : State := base.setTenant 0 0 { base.tenant 0 0 with apers := (base.tenant 0 0).apers.set 0 0x8000000000000000 }

theorem witness_HostAccesses : (base.aperture 0 0 0x20000 8 = none ∧ hosted.aperture 0 0 0x20000 8 = some 0x20000 ∧
      hosted.aperture 0 0 0x20003 4 = some 0x20003 ∧ 0x20003 % 4 ≠ 0) ∧
    ((hosted.pkg (paPkg 0x20000)).on = true ∧ hosted.admits 0 0 0x20000 8 = true ∧ hosted.readBusy 0x20000 8 = false ∧
      hosted.mergesFailing 0x20000 8 = false ∧ hosted.region 0x20000 = .hbm ∧ Memory.wf hosted.mem = true ∧ (hosted.pkg 0).recovery = false) ∧
    (∀ i, i < 8 → hosted.failing (0x20000 + i) = false) ∧ Claims.Unwatched hosted 0x20000 8 ∧
    (hosted.mmioRead 0x300008100020).isSome = true ∧ (hosted.mmioRead 0x300008500080).isSome = true := by
  refine ⟨by decide +kernel, by decide +kernel, fun i h => ?_, by unfold Claims.Unwatched; decide +kernel, by decide +kernel⟩
  interval_cases i <;> decide +kernel

/-- A park entry of tenant 0 whose table at 0x4_0000 has no block. -/
def anEntryOf (st stage : Nat) (woken : Bool) : ParkEntry where
  st := st
  tenant := 0
  ctier := 0
  stage := stage
  woken := woken
  cid := 0
  wtok := 0x30000
  btab := 0x40000
  ctx := 0x50000
  nused := 0
  csize := 320
  age := 10000000
  wval := 7
  ptokp := 0
  reg := 6
  blog := 16
  still := []
  resumed := false
  pos := 0
  failed := []
  short := false

def parked (x : ParkEntry) (ms : List Mover) : State :=
  withPkg fun p => { p with park := [(2, x)], movers := ms, farFree := [(0x100000000000, 0x1000)], cxlSize := p.cxlSize.set 0 0x10000, waitSlot := if x.st = 4 then [2] else [] }

def aMover (block : Option Nat) (bad : Option Pa) : Mover := ⟨2, block, 9, 0, 1, 0x50000, 0x100000000000, 320, [], bad⟩

/-- The same with a window over the CXL memory. -/
def farParked (x : ParkEntry) : State :=
  let s := parked x []
  s.setTenant 0 0 { s.tenant 0 0 with cfg := { (s.tenant 0 0).cfg with windows := (0x100000000000, 0x10000) :: (s.tenant 0 0).cfg.windows } }

/-- base with the entry's wake watch, its promotion token at pt, and a move under way or none. -/
def watched (pt : Pa) (ms : List Mover) : State :=
  let s := parked { anEntryOf 2 0 false with ptokp := pt } ms
  s.setPkg 0 { s.pkg 0 with watches := [(0x30000, 2)] }

theorem witness_WakeTaken : ∀ pt ∈ [0, 0x30100], ∀ ms ∈ [[], [aMover (some 0) none]], ∀ s, s = watched pt ms →
    (s.entry 0 2 = some { anEntryOf 2 0 false with ptokp := pt } ∧ Claims.Served s base.who 0 0x30000 8) ∧
    s.mmioRead 0x30000 = none ∧ paPkg 0x30000 = 0 ∧ (s.pkg 0).watches = [(0x30000, 2)] ∧ ((s.pkg 0).park.map (·.1)).Nodup ∧ (s.mover 0 2 = none ↔ ms = []) ∧
    (pt = 0 ∨ paPkg pt = 0 ∧ s.failing pt = false ∧ s.homeOf pt ≠ .nowhere ∧ 0x30008 ≤ pt ∧ (anEntryOf 2 0 false).nused = 0) := by
  intro pt hp ms hm s hs
  subst hs
  unfold Claims.Served
  revert pt ms
  decide +kernel

theorem witness_ParkedContinuationsMove :
    ((parked (anEntryOf 1 0 false) []).entry 0 2 = some (anEntryOf 1 0 false) ∧ (base.tenant 0 0).ndwell ≠ 0xFFFFFFFF ∧
      (base.tenant 0 0).ndwell.toNat ≤ (anEntryOf 1 0 false).age) ∧
    ((parked { anEntryOf 1 1 false with age := 600000000 } []).entry 0 2 = some { anEntryOf 1 1 false with age := 600000000 } ∧
      (base.tenant 0 0).fdwell ≠ 0xFFFFFFFF ∧ (base.tenant 0 0).fdwell.toNat ≤ 600000000) ∧
    ((parked (anEntryOf 2 0 true) []).mover 0 2 = none) ∧
    ((parked (anEntryOf 2 1 false) []).nextDown 0 (anEntryOf 2 1 false) = none ∧ (anEntryOf 2 1 false).ctier ≠ (anEntryOf 2 1 false).stage) ∧
    (parked { anEntryOf 2 0 false with nused := 1 } []).nextDown 0 { anEntryOf 2 0 false with nused := 1 } = some 0 ∧
    ((∃ dst u, (farParked (anEntryOf 2 0 false)).takeTier 0 0 1 (anEntryOf 2 0 false).ctxBytes 64 = some (dst, u)) ∧ (anEntryOf 2 0 false).stage < 2 ∧ paPkg (anEntryOf 2 0 false).ctx = 0 ∧
      ((farParked (anEntryOf 2 0 false)).pkg 0).locks = [] ∧ ((farParked (anEntryOf 2 0 false)).pkg 0).sole = none ∧ ((farParked (anEntryOf 2 0 false)).pkg 0).movers = []) ∧
    ((parked (anEntryOf 2 0 false) [aMover (some 0) none]).mover 0 2 = some (aMover (some 0) none) ∧ Memory.wf base.mem = true ∧ (base.pkg 0).watches = [] ∧
      (parked (anEntryOf 2 0 false) [aMover none none]).mover 0 2 = some (aMover none none) ∧
      (parked (anEntryOf 2 0 false) [aMover none (some 0)]).mover 0 2 = some (aMover none (some 0))) ∧
    paPkg (anEntryOf 1 0 true).wtok = 0 ∧
    ((parked (anEntryOf 3 0 true) []).mayResume (anEntryOf 3 0 true) = true ∧ (parked (anEntryOf 3 0 true) []).firstFailing 0x50000 320 = none ∧
      ((parked (anEntryOf 3 0 true) []).pkg 0).waitSlot = [] ∧
      (parked (anEntryOf 3 0 true) []).resumePlace 0 (anEntryOf 3 0 true) = some (0, 1) ∧ ((parked (anEntryOf 3 0 true) []).core 0).cacheUsed = 0 ∧
      ((parkedCo base.mem 0x50000).explicitSize (memWord base.mem 0x50020 ||| 2 ||| BitVec.twoPow 64 6) + 63) / 64 * 64 ≤ 196608) ∧
    (∃ s : State, s.entry 0 2 = some (anEntryOf 3 0 true) ∧ s.mayResume (anEntryOf 3 0 true) = true ∧ s.resumePlace 0 (anEntryOf 3 0 true) = none) ∧
    ((parked (anEntryOf 4 0 true) []).pkg 0).waitSlot = [2] ∧ (parked (anEntryOf 4 0 true) []).resumePlace 0 (anEntryOf 4 0 true) = some (0, 1) := by
  refine ⟨by decide +kernel, by decide +kernel, by decide +kernel, by decide +kernel, by decide +kernel, ⟨?_, by decide +kernel⟩, by decide +kernel, ?_, ?_,
    ⟨(parked (anEntryOf 3 0 true) []).setTenant 0 0 Tenant.reset, ?_⟩, ?_⟩
  · obtain ⟨⟨d, u⟩, h⟩ := opt_some (a := (farParked (anEntryOf 2 0 false)).takeTier 0 0 1 (anEntryOf 2 0 false).ctxBytes 64) (by decide +kernel)
    exact ⟨d, u, h⟩
  all_goals decide +kernel

/-- base with a request record of an operation for two entries of the table at 0x4_0000, or for blocks to core 0. -/
def asking (op : Byte) : State :=
  { withPkg (fun p => { p with fwreqs := [(0, 0x30000)], prefixes := [(5, [0x70000, 0x80000])], replies := [(0, 0, ⟨2, 0, 0, 0⟩)] }) with
    mem := memPut base.mem 0x30000 ([op] ++ List.replicate 15 0 ++ [if op = 2 then 5 else 4] ++ List.replicate 7 0 ++ [0, 0, 4, 0, 0, 0, 0, 0] ++
      [0, 0, 0, 0, 2, 0, 0, 0]) }

theorem witness_GrexaServesRequests : (base.inWindow 0 0 0x10000000 64 = false ∧ base.inWindow 0 0 0xFFFFFC0 64 = true) ∧
    (∃ r, (asking 1).request 0 = some r ∧ r.op = 1 ∧ r.count = 2 ∧ pkgOf (cidCore r.reply) = 0 ∧ (asking 1).mailboxOpen 0 r.tenant r.reply = true) ∧
    (∃ r, (asking 4).request 0 = some r ∧ r.op = 4) ∧
    (∃ r, (asking 2).request 0 = some r ∧ r.op = 2 ∧ (asking 2).tableOk 0 r = true ∧ ((asking 2).pkg 0).prefixes.find? (·.1 == r.key) = some (r.key, [0x70000, 0x80000]) ∧
      [0x70000, 0x80000].length = r.count ∧ Memory.wf (asking 2).mem = true) ∧
    (∃ s : State, ∃ r, s.request 0 = some r ∧ r.op = 2 ∧ s.tableOk 0 r = true ∧ (s.pkg 0).prefixes = []) ∧
    (∃ s : State, ∃ r, s.request 0 = some r ∧ r.op = 2 ∧ s.tableOk 0 r = false) ∧
    (∃ r, (asking 3).request 0 = some r ∧ r.op = 3 ∧ (asking 3).tableOk 0 r = true ∧ Memory.wf (asking 3).mem = true ∧
      ((asking 3).tableWord r.table r.first).extractLsb' 62 2 ≠ 3 ∧ ((asking 3).pkg 0).counts.Pairwise (·.1 < ·.1)) ∧
    (∀ op ∈ [2, 3], ∀ q, ((asking op).pkg q).watches = []) ∧
    (base.mailboxOpen 0 0 0 = true ∧ (base.core 0).mailbox.length < 64 ∧ base.mailboxOpen 0 0 0x4000 = false) := by
  refine ⟨by decide +kernel, ⟨_, rfl, by decide +kernel⟩, ⟨_, rfl, by decide +kernel⟩, ⟨_, rfl, by decide +kernel⟩,
    ⟨(asking 2).setPkg 0 { (asking 2).pkg 0 with prefixes := [] }, _, rfl, by decide +kernel⟩, ⟨(asking 2).setTenant 0 0 Tenant.reset, _, rfl, by decide +kernel⟩,
    ⟨_, rfl, by decide +kernel⟩, fun op ho q => ?_, by decide +kernel⟩
  exact tab_all (P := fun y : Pkg => y.watches = []) (by decide) (by revert op; decide +kernel) q

theorem witness_DeviceManagement : ((parked (anEntryOf 1 0 false) []).region 0x100000000000 = .cxl 0 ∧ paPkg 0x100000000000 = 0) ∧
    (∃ s : State, (s.pkg 0).snap.pending = [] ∧ (s.pkg 0).snap.arm = true) ∧ ((base.pkg 0).snap.pending = [] ∧ (base.pkg 0).snap.arm = false) ∧
    (∃ s : State, (s.pkg 0).snap.pending = [(7, 1)] ∧ (s.pkg 0).snap.arm = false ∧ ∀ x ∈ (s.pkg 0).snap.pending, x.1 ≠ s.elapsed) ∧
    (∀ l ∈ [[], [0]], ∃ j, j < 128 ∧ j / 16 = 0 ∧ j ∉ ((withPkg fun p => { p with ports := l }).pkg 0).ports) ∧
    ((base.pkg 0).recovery = false ∧ (base.pkg 0).on = true ∧ (63 : BitVec 32).toNat < 64 ∧ ∀ x ∈ (base.pkg 0).mirror, x.2.ptokp = 0) ∧
    (∀ x ∈ [(base, false, false), (withPkg fun p => { p with failing := [0x20000] }, true, false), (withPkg fun p => { p with weak := [0x20000] }, false, true)],
      x.1.region 0x20000 = .hbm ∧ (x.1.pkg 0).on = true ∧ x.1.linkDown 0x20000 = false ∧ x.1.memoryFails 0x20000 = x.2.1 ∧
      (x.1.codeword 0x20000 ∈ (x.1.pkg 0).weak ↔ x.2.2 = true) ∧ (x.1.pkg 0).corrected = [] ∧ (x.2.2 = false → (x.1.pkg 0).weak = [])) ∧
    (∃ s : State, s.linkDown 0x100000000000 = true) ∧
    16 ≤ (((withPkg fun p => { p with corrected := List.replicate 16 (0x30000, 0) }).pkg 0).corrected.filter fun x => x.1 == 0x30000 && 0 - x.2 < 60480000000000).length := by
  refine ⟨by decide +kernel, ⟨withPkg fun p => { p with snap := { p.snap with arm := true } }, by decide +kernel⟩, by decide +kernel,
    ⟨withPkg fun p => { p with snap := { p.snap with pending := [(7, 1)] } }, by decide +kernel⟩, fun l hl => ⟨1, by revert l; decide +kernel⟩, by decide +kernel, by decide +kernel,
    ⟨withPkg fun p => { p with cxlSize := p.cxlSize.set 0 0x10000, cxlDown := p.cxlDown.set 0 true }, by decide +kernel⟩, by decide +kernel⟩

/-! ### Encodings, the step, storage -/

/-- A head without a tail, with 16, 32 and 64 bits of tail; every opcode has its words in range. -/
theorem witness_EncodeThenDecode : (Instr.setvlhw 31 30 29 2 14).wf = true ∧ (encode (.setvlhw 31 30 29 2 14)).isSome = true ∧
    (Instr.liD 31 0xFFFFFFFFFFFFFFFF).wf = true ∧ (encode (.liD 31 0xFFFFFFFFFFFFFFFF)).isSome = true := by decide +kernel

theorem witness_DecodeThenEncode : decode 0x4230 0x2840 = .ok (.add 6 5 1) ∧ (0x2840 : Word).toNat < 256 ^ tailBytes 0x4230 := by decide +kernel

/-- base with the PC at an offset of its line, or at another page. -/
def pcAt (pc : Word) : State := withCo fun c => { c with pc := pc }

/-- The core in focus goes on in a state, it fetches, and it issues. -/
def goesOnB (u : State) : Bool :=
  u.cur.running == some 0 && (u.cur.slot 0).wait == .nothing && (u.pkg (pkgOf u.focus)).live && u.cur.mergeDue.isNone &&
  !u.co.lpend && !u.cur.chunk.ended && !u.ext.sole
def fetchesB (u : State) : Bool := !u.cur.evicting && decide (u.ext.chunks < u.co.quantum.toNat) && !u.co.lbad
def issuesB (u : State) : Bool := u.fetchWait.isNone

theorem goes_of {u : State} (h : goesOnB u = true) : Claims.GoesOn u := by
  simp only [goesOnB, Bool.and_eq_true, beq_iff_eq, Option.isNone_iff_eq_none, Bool.not_eq_true'] at h
  obtain ⟨⟨⟨⟨⟨⟨h1, h2⟩, h3⟩, h4⟩, h5⟩, h6⟩, h7⟩ := h
  exact ⟨⟨0, h1, h2⟩, h3, h4, h5, h6, by simp [h7]⟩

theorem fetches_of {u : State} (g : Claims.GoesOn u) (h : fetchesB u = true) : Claims.Fetches u := by
  simp only [fetchesB, Bool.and_eq_true, Bool.not_eq_true', decide_eq_true_eq] at h
  exact ⟨g, fun _ _ => ⟨h.1.1, fun _ => h.1.2⟩, h.2⟩

theorem issues_of {u : State} (g : Claims.Fetches u) (h : issuesB u = true) : Claims.Issues u := by
  exact ⟨g, Option.isNone_iff_eq_none.mp h⟩

/-- What step issues in from a state whose agenda is empty. -/
def turnFrom (s : State) : State := { s.tick with burst := s.burst + 1 }

/-- The core in focus has the turn in a state. -/
def turnB (s : State) : Bool := s.agenda == [] && s.tick.canIssue s.focus && s.burst < 8

theorem turn_of {s : State} (h : turnB s = true) : Claims.TurnOf s (turnFrom s) := by
  simp only [turnB, Bool.and_eq_true, beq_iff_eq, decide_eq_true_eq] at h
  exact .inr ⟨h.1.1, h.1.2, h.2, rfl⟩

/-- base with its PC in a page that no TLB has and no table maps. -/
def unmapped : State := pcAt 0x900002

/-- A core to be evicted, a fetch that waits for the walk of its page, one that finds nothing, and one that goes on. -/
theorem witness_StepTakesTurns :
    (∃ s : State, Claims.TurnOf s (turnFrom s) ∧ Claims.GoesOn (turnFrom s) ∧ (turnFrom s).cur.evicting = true ∧ (turnFrom s).co.cont = 0 ∧
      (turnFrom s).ext.ended = false) ∧
    (∃ s : State, Claims.TurnOf s (turnFrom s) ∧ Claims.Fetches (turnFrom s) ∧ ∃ va, (turnFrom s).fetchWait = some va) ∧
    Claims.TurnOf unmapped (turnFrom unmapped) ∧ Claims.Issues (turnFrom unmapped) ∧
    ∀ s ∈ [base, withPkg fun p => { p with failing := [0x10000] }], Claims.TurnOf s (turnFrom s) ∧ Claims.Issues (turnFrom s) := by
  refine ⟨⟨withCur fun c => { c with evicting := true }, turn_of (by decide +kernel), goes_of (by decide +kernel), by decide +kernel⟩,
    ⟨unmapped.setPkg 0 { unmapped.pkg 0 with walks := [⟨[.core 1], 0, 0x900000, 0, 0⟩] }, turn_of (by decide +kernel), fetches_of (goes_of (by decide +kernel)) (by decide +kernel), opt_some (by decide +kernel)⟩,
    turn_of (by decide +kernel), issues_of (fetches_of (goes_of (by decide +kernel)) (by decide +kernel)) (by decide +kernel), fun s hs =>
    ⟨turn_of (by revert s; decide +kernel), issues_of (fetches_of (goes_of (by revert s; decide +kernel)) (by revert s; decide +kernel)) (by revert s; decide +kernel)⟩⟩

/-- The count word, an odd address, a page without a translation, a line that fails, the head, and a place behind the last head. -/
theorem witness_StepRunsDecodedInstruction : (0xFC00000000010000 : Word).toNat % 64 = 0 ∧ (0xFC00000000010003 : Word).toNat % 2 = 1 ∧
    (match (turnFrom unmapped).lineBytes 0 .user 0x900000 with
      | .error m => m == .page
      | _ => false) = true ∧
    (match (turnFrom (withPkg fun p => { p with failing := [0x10000] })).lineBytes 0 .user (Claims.lineStart base.co.pc) with
      | .error m => m != .page
      | _ => false) = true ∧
    (match (turnFrom base).lineBytes 0 .user (Claims.lineStart base.co.pc) with
      | .ok b => lineWf b && lineCount b == 1 && decide (decodeAt b 1 = .ok (.add 6 5 1))
      | _ => false) = true := by decide +kernel

/-- An ill-formed line, and one whose words are no instruction. -/
theorem witness_StepTraps : (lineWf (List.replicate 64 0) = false) ∧
    (match (State.reset.withFetchWord 16 0x3F00).lineBytes 0 .user 0xFC00000000010000 with
      | .ok b => lineWf b && !(decodeAt b 1).isOk
      | _ => false) = true := by decide +kernel

theorem witness_WhatIsWrittenReadsBack : Memory.wf base.mem = true ∧ Memory.wf base.co.v = true ∧ (7 : Nat) < base.co.nregs ∧
    65535 < vlmaxW 4 base.co.nregs ∧ ¬65536 < vlmaxW 4 base.co.nregs := by decide +kernel

theorem witness_Invariants : base.Inv ∧ base.VInv ∧ ∃ t, step base = .next t := by
  refine ⟨by unfold State.Inv; decide +kernel, ⟨fun x hx => ?_, by decide +kernel⟩, ?_⟩
  · have h : base.cores.all (fun x => Memory.wf x.2.co.v && Memory.wf x.2.chunk.start.v && (x.2.waiting.all fun k => Memory.wf k.start.v) &&
      x.2.slots.all fun y => Memory.wf y.2.co.v) = true := by decide +kernel
    have := List.all_eq_true.mp h x hx
    simp only [Bool.and_eq_true, List.all_eq_true, Option.all_eq_true] at this
    exact ⟨this.1.1.1, this.1.1.2, this.1.2, this.2⟩
  · have h : (match step base with
      | .next _ => true
      | _ => false) = true := by decide +kernel
    split at h
    · exact ⟨_, by assumption⟩
    · cases h

/-! ### Words: every instruction that has words, once, its head and tail written field by field from R16, R17 and the tables
R78, R79 and R80 of spec/03_operands_and_opcode_map.md, register fields mostly 9, 17, 22 and 12 -/

/-- The words stand for the instruction, which is well formed, and only they do. -/
def standsFor (h : BitVec 16) (t : Word) (i : Instr) : Bool :=
  decide (decode h t = .ok i) && i.wf && decide (encode i = some (h, t))

/-- The line that 01_instruction_lines.md packs byte by byte, and R34's instance: seven LI of 64-bit values. -/
theorem test_pack :
    pack 0x10000 [] [.line, .ins (liOf 5 0x0000123456789ABC), .ins (.add 6 5 1), .ins (.addi 6 6 (-4)), .ins .nop, .ins (.exit 0)] =
      [[0x00, 0x28, 0x28, 0xC4, 0x30, 0x42, 0x30, 0x83, 0x00, 0x00, 0x02, 0x00] ++ List.replicate 38 0 ++
        [0xFC, 0xFF, 0xFF, 0x37, 0x40, 0x28, 0xBC, 0x9A, 0x78, 0x56, 0x34, 0x12, 0x00, 0x00]] ∧
    (pack 0 [] (List.replicate 7 (.ins (liOf 5 0x123456789)))).map lineCount = [6, 1] ∧ liOf 5 (-2147483648) = .liW 5 0x80000000 ∧
    (pack 64 [] [.ins .nop, .align 256, .ins .nop]).map lineCount = [1, 1, 1, 1] := by decide +kernel

/-- MISC. -/
theorem test_decode_misc : standsFor 0x0000 0x0 (.nop) ∧ standsFor 0x0001 0x0 (.yield) ∧ standsFor 0x004A 0x0 (.exit 9) ∧ standsFor 0x0003 0x0 (.eret) ∧
    standsFor 0x0004 0x0 (.brk) ∧ standsFor 0x0005 0x0 (.snap) := by decide +kernel

/-- SYS. -/
theorem test_decode_sys : standsFor 0x8148 0x1230000 (.csrr 9 0x123) ∧ standsFor 0x8149 0x89230000 (.csrw 9 17 0x123) ∧
    standsFor 0x814A 0x89230000 (.csrs 9 17 0x123) ∧ standsFor 0x814B 0x89230000 (.csrc 9 17 0x123) ∧
    standsFor 0x8104 0xBEEF (.trap 0xBEEF) := by decide +kernel

/-- ALU. -/
theorem test_decode_alu : standsFor 0x4248 0x8D80 (.add 9 17 22) ∧ standsFor 0x4248 0x8D81 (.sub 9 17 22) ∧ standsFor 0x4248 0x8D82 (.mul 9 17 22) ∧
    standsFor 0x4248 0x8D83 (.mulh 9 17 22) ∧ standsFor 0x4248 0x8D84 (.mulhn 9 17 22) ∧ standsFor 0x4248 0x8D85 (.div 9 17 22) ∧
    standsFor 0x4248 0x8D86 (.divn 9 17 22) ∧ standsFor 0x4248 0x8D87 (.rem 9 17 22) ∧ standsFor 0x4248 0x8D88 (.remn 9 17 22) ∧
    standsFor 0x4248 0x8D89 (.and 9 17 22) ∧ standsFor 0x4248 0x8D8A (.or 9 17 22) ∧ standsFor 0x4248 0x8D8B (.xor 9 17 22) ∧
    standsFor 0x4248 0x8D8C (.andn 9 17 22) ∧ standsFor 0x4248 0x8D8D (.shl 9 17 22) ∧ standsFor 0x4248 0x8D8E (.shr 9 17 22) ∧
    standsFor 0x4248 0x8D8F (.sra 9 17 22) ∧ standsFor 0x4248 0x8D90 (.rol 9 17 22) ∧ standsFor 0x4248 0x8D91 (.min 9 17 22) ∧
    standsFor 0x4248 0x8D92 (.max 9 17 22) ∧ standsFor 0x4248 0x8D93 (.minn 9 17 22) ∧ standsFor 0x4248 0x8D94 (.maxn 9 17 22) ∧
    standsFor 0x4248 0x8D95 (.slt 9 17 22) ∧ standsFor 0x4248 0x8D96 (.sltn 9 17 22) ∧ standsFor 0x4248 0x8D97 (.seq 9 17 22) ∧
    standsFor 0x4248 0x8818 (.clz 9 17) ∧ standsFor 0x4248 0x8819 (.ctz 9 17) ∧ standsFor 0x4248 0x881A (.popc 9 17) := by decide +kernel

/-- ALUI. -/
theorem test_decode_alui : standsFor 0x8348 0x8FFFFFFD (.addi 9 17 (-3)) ∧ standsFor 0x8349 0x8FFFFFFD (.andi 9 17 (-3)) ∧
    standsFor 0x834A 0x8FFFFFFD (.ori 9 17 (-3)) ∧ standsFor 0x834B 0x8FFFFFFD (.xori 9 17 (-3)) ∧
    standsFor 0x834C 0x8FFFFFFD (.slti 9 17 (-3)) ∧ standsFor 0x834D 0x88000025 (.shli 9 17 37) ∧
    standsFor 0x834E 0x88000025 (.shri 9 17 37) ∧ standsFor 0x834F 0x88000025 (.srai 9 17 37) := by decide +kernel

/-- LI. -/
theorem test_decode_li : standsFor 0x8448 0x89ABCDEF (.liW 9 0x89ABCDEF) ∧ standsFor 0xC448 0x123456789ABCDEF (.liD 9 0x0123456789ABCDEF) := by decide +kernel

/-- SEL. -/
theorem test_decode_sel : standsFor 0x8548 0x8D980000 (.sel 9 17 22 12) := by decide +kernel

/-- FPU. -/
theorem test_decode_fpu : standsFor 0x4648 0x8D80 (.fadd false 9 17 22) ∧ standsFor 0x4649 0x8D81 (.fsub true 9 17 22) ∧
    standsFor 0x4648 0x8D82 (.fmul false 9 17 22) ∧ standsFor 0x4649 0x8D83 (.fdiv true 9 17 22) ∧
    standsFor 0x4648 0x8804 (.fsqrt false 9 17) ∧ standsFor 0x4649 0x8D85 (.fmin true 9 17 22) ∧
    standsFor 0x4648 0x8D86 (.fmax false 9 17 22) ∧ standsFor 0x4649 0x8D87 (.feq true 9 17 22) ∧
    standsFor 0x4648 0x8D88 (.flt false 9 17 22) ∧ standsFor 0x4649 0x8D89 (.fle true 9 17 22) ∧
    standsFor 0x4648 0x880A (.fcvtif false 9 17) ∧ standsFor 0x4649 0x880B (.fcvtfi true 9 17) ∧
    standsFor 0x4648 0x880C (.fclass false 9 17) := by decide +kernel

/-- FFMA. -/
theorem test_decode_ffma : standsFor 0x8748 0x8D980060 (.ffma 9 17 22 12 96) ∧ standsFor 0x8748 0x8D9800E9 (.ffms 9 17 22 12 105) ∧
    standsFor 0x8748 0x8D980162 (.fnma 9 17 22 12 98) := by decide +kernel

/-- LD. -/
theorem test_decode_ld : standsFor 0x8848 0x8FFFFFFB (.ldb 9 17 (-5)) ∧ standsFor 0x8849 0x8FFFFFFB (.ldh 9 17 (-5)) ∧
    standsFor 0x884A 0x8FFFFFFB (.ldw 9 17 (-5)) ∧ standsFor 0x884B 0x8FFFFFFB (.ldd 9 17 (-5)) ∧
    standsFor 0x884C 0x8FFFFFFB (.ldnb 9 17 (-5)) ∧ standsFor 0x884D 0x8FFFFFFB (.ldnh 9 17 (-5)) ∧
    standsFor 0x884E 0x8FFFFFFB (.ldnw 9 17 (-5)) := by decide +kernel

/-- ST. -/
theorem test_decode_st : standsFor 0x8948 0x88000006 (.stb 9 17 6) ∧ standsFor 0x8949 0x88000006 (.sth 9 17 6) ∧ standsFor 0x894A 0x88000006 (.stw 9 17 6) ∧
    standsFor 0x894B 0x88000006 (.std 9 17 6) := by decide +kernel

/-- AMO. -/
theorem test_decode_amo : standsFor 0x8A48 0x8D804000 (.aadd false 9 17 22 1) ∧ standsFor 0x8A49 0x8D808100 (.aand true 9 17 22 2) ∧
    standsFor 0x8A48 0x8D80C200 (.aor false 9 17 22 3) ∧ standsFor 0x8A49 0x8D804300 (.axor true 9 17 22 1) ∧
    standsFor 0x8A48 0x8D808400 (.amin false 9 17 22 2) ∧ standsFor 0x8A49 0x8D80C500 (.amax true 9 17 22 3) ∧
    standsFor 0x8A48 0x8D804600 (.aminn false 9 17 22 1) ∧ standsFor 0x8A49 0x8D808700 (.amaxn true 9 17 22 2) ∧
    standsFor 0x8A48 0x8D80C800 (.aswp false 9 17 22 3) ∧ standsFor 0x8A49 0x8D984900 (.acas true 9 17 22 12 1) := by decide +kernel

/-- FUT. -/
theorem test_decode_fut : standsFor 0x8B48 0x8FFFFFF8 (.ldf 9 17 (-8)) ∧ standsFor 0x8B49 0x8FFFFFF8 (.stf 9 17 (-8)) := by decide +kernel

/-- BR. -/
theorem test_decode_br : standsFor 0x8C00 0x8DBFFFF9 (.beq 17 22 (-7)) ∧ standsFor 0x8C01 0x8DBFFFF9 (.bne 17 22 (-7)) ∧
    standsFor 0x8C02 0x8DBFFFF9 (.blt 17 22 (-7)) ∧ standsFor 0x8C03 0x8DBFFFF9 (.bge 17 22 (-7)) ∧
    standsFor 0x8C04 0x8DBFFFF9 (.bltn 17 22 (-7)) ∧ standsFor 0x8C05 0x8DBFFFF9 (.bgen 17 22 (-7)) := by decide +kernel

/-- JMP. -/
theorem test_decode_jmp : standsFor 0x8D00 0x7FFFFF7 (.j (-9)) ∧ standsFor 0x8D49 0x9 (.jal 9 9) ∧ standsFor 0x8D4A 0x8FFFFFFE (.jr 9 17 (-2)) := by decide +kernel

/-- LOOP. -/
theorem test_decode_loop : standsFor 0x8E4A 0x8DA00000 (.loop 2 9 17 22 32) := by decide +kernel

/-- FENCE. -/
theorem test_decode_fence : standsFor 0x0F01 0x0 (.fenceCluster) ∧ standsFor 0x0F02 0x0 (.fencePackage) ∧ standsFor 0x0F03 0x0 (.fencePod) ∧
    standsFor 0x0F4C 0x0 (.fencet 9) := by decide +kernel

/-- SPAWN. -/
theorem test_decode_spawn : standsFor 0x9048 0x8D980AA9 (.spawn 9 17 22 12 21 41) := by decide +kernel

/-- AWAIT and AWAITC. -/
theorem test_decode_await : standsFor 0xD148 0xF0F0000000000001 (.await 9 0xF0F0000000000001) ∧
    standsFor 0xD149 0xF0F0000000000001 (.awaitw 9 0xF0F0000000000001) ∧
    standsFor 0xD14A 0xF0F0000000000001 (.awaitg 9 0xF0F0000000000001) ∧
    standsFor 0xD14B 0xF0F0000000000001 (.awaitb 9 0xF0F0000000000001) ∧
    standsFor 0xD24E 0xF0F0000000000001 (.awaitc 6 9 0xF0F0000000000001) := by decide +kernel

/-- TOK. -/
theorem test_decode_tok : standsFor 0x5300 0x8D80 (.tarm 17 22) ∧ standsFor 0x5300 0x8D81 (.tsig 17 22) ∧ standsFor 0x5300 0x8D82 (.thw 17 22) ∧
    standsFor 0x5348 0x8803 (.tpoll 9 17) ∧ standsFor 0x5300 0x8D84 (.tarmc 17 22) ∧ standsFor 0x5300 0x8D85 (.tsigc 17 22) ∧
    standsFor 0x5348 0x8806 (.tpollc 9 17) := by decide +kernel

/-- MBOX. -/
theorem test_decode_mbox : standsFor 0x5448 0x8D80 (.msend 9 17 22) ∧ standsFor 0x5448 0x8801 (.mrecv 9 17) ∧ standsFor 0x5400 0x8802 (.mhand 17) := by decide +kernel

/-- PARK and BLK. -/
theorem test_decode_park : standsFor 0xD548 0xF0F0000000000001 (.park 9 0xF0F0000000000001) ∧ standsFor 0x5648 0x0 (.balloc 9) ∧
    standsFor 0x5600 0x8801 (.bfree 17) := by decide +kernel

/-- CPY, CPYB, CPYV, CSEAL and XBSWAP. -/
theorem test_decode_copy : standsFor 0x9848 0x88000000 (.cpyMem 9 17) ∧ standsFor 0x9849 0x88000000 (.cpyVec 9 17) ∧
    standsFor 0x9948 0x8801A000 (.cpyb 9 17 true 5) ∧ standsFor 0x9A48 0x8D800380 (.cpyvl 9 17 22 7) ∧
    standsFor 0x9A49 0x8D800200 (.cpyvs 9 17 22 4) ∧ standsFor 0x9A4A 0x8D980180 (.cpyrr 9 17 22 12 3) ∧
    standsFor 0x9A4B 0x8D8C0000 (.cpyvg 9 17 22 6) ∧ standsFor 0x1B00 0x0 (.cseal) ∧
    standsFor 0x9C48 0x8D8C154B (.xbswap 9 17 22 6 0x2A 75) := by decide +kernel

/-- SETVL. -/
theorem test_decode_setvl : standsFor 0xA048 0x88000138 (.setvl 9 17 2 7) ∧ standsFor 0xA049 0x8D8000E0 (.setvlhw 9 17 22 1 12) := by decide +kernel

/-- VINT. -/
theorem test_decode_vint : standsFor 0xA148 0x8D81A000 (.vadd ⟨0, 9, 17, 22, 0, true, 5, 0⟩) ∧ standsFor 0xA149 0x8D81A088 (.vsub ⟨1, 9, 17, 22, 0, true, 5, 8⟩) ∧
    standsFor 0xA14A 0x8D81A110 (.vmul ⟨2, 9, 17, 22, 0, true, 5, 16⟩) ∧
    standsFor 0xA148 0x8D81A198 (.vmulh ⟨0, 9, 17, 22, 0, true, 5, 24⟩) ∧
    standsFor 0xA149 0x8D81A220 (.vdiv ⟨1, 9, 17, 22, 0, true, 5, 32⟩) ∧
    standsFor 0xA14A 0x8D81A2A8 (.vrem ⟨2, 9, 17, 22, 0, true, 5, 40⟩) ∧
    standsFor 0xA148 0x8D81A330 (.vand ⟨0, 9, 17, 22, 0, true, 5, 48⟩) ∧
    standsFor 0xA149 0x8D81A3B8 (.vor ⟨1, 9, 17, 22, 0, true, 5, 56⟩) ∧ standsFor 0xA14A 0x8D81A400 (.vxor ⟨2, 9, 17, 22, 0, true, 5, 0⟩) ∧
    standsFor 0xA148 0x8D81A488 (.vshl ⟨0, 9, 17, 22, 0, true, 5, 8⟩) ∧
    standsFor 0xA149 0x8D81A510 (.vshr ⟨1, 9, 17, 22, 0, true, 5, 16⟩) ∧
    standsFor 0xA14A 0x8D81A598 (.vsra ⟨2, 9, 17, 22, 0, true, 5, 24⟩) ∧
    standsFor 0xA148 0x8D81A620 (.vmin ⟨0, 9, 17, 22, 0, true, 5, 32⟩) ∧
    standsFor 0xA149 0x8D81A6A8 (.vmax ⟨1, 9, 17, 22, 0, true, 5, 40⟩) ∧
    standsFor 0xA14A 0x8D81A730 (.vsadd ⟨2, 9, 17, 22, 0, true, 5, 48⟩) ∧
    standsFor 0xA148 0x8D81A7B8 (.vssub ⟨0, 9, 17, 22, 0, true, 5, 56⟩) := by decide +kernel

/-- VFP. -/
theorem test_decode_vfp : standsFor 0xA248 0x8D81A050 (.vfadd ⟨0, 9, 17, 22, 0, true, 5, 80⟩) ∧
    standsFor 0xA249 0x8D81A0D9 (.vfsub ⟨1, 9, 17, 22, 0, true, 5, 89⟩) ∧
    standsFor 0xA24A 0x8D81A162 (.vfmul ⟨2, 9, 17, 22, 0, true, 5, 98⟩) ∧
    standsFor 0xA248 0x8D81A1EB (.vfdiv ⟨0, 9, 17, 22, 0, true, 5, 107⟩) ∧
    standsFor 0xA248 0x8801A254 (.vfsqrt ⟨0, 9, 17, 0, 0, true, 5, 84⟩) ∧
    standsFor 0xA24A 0x8D81A2DD (.vfmin ⟨2, 9, 17, 22, 0, true, 5, 93⟩) ∧
    standsFor 0xA248 0x8D81A360 (.vfmax ⟨0, 9, 17, 22, 0, true, 5, 96⟩) ∧
    standsFor 0xA248 0x8801A3E9 (.vfabs ⟨0, 9, 17, 0, 0, true, 5, 105⟩) ∧
    standsFor 0xA248 0x8D99A452 (.vffma ⟨0, 9, 17, 22, 12, true, 5, 82⟩) ∧
    standsFor 0xA248 0x8D99A4DB (.vffms ⟨0, 9, 17, 22, 12, true, 5, 91⟩) ∧
    standsFor 0xA248 0x8D99A564 (.vfnma ⟨0, 9, 17, 22, 12, true, 5, 100⟩) ∧
    standsFor 0xA248 0x8801A5ED (.vfrcp ⟨0, 9, 17, 0, 0, true, 5, 109⟩) ∧
    standsFor 0xA248 0x8801A650 (.vfrsq ⟨0, 9, 17, 0, 0, true, 5, 80⟩) ∧
    standsFor 0xA248 0x8D81A6D9 (.vfrcps ⟨0, 9, 17, 22, 0, true, 5, 89⟩) ∧
    standsFor 0xA248 0x8D81A762 (.vfrsqs ⟨0, 9, 17, 22, 0, true, 5, 98⟩) ∧
    standsFor 0xA248 0x8801A7EB (.vfexp2 ⟨0, 9, 17, 0, 0, true, 5, 107⟩) := by decide +kernel

/-- VCVT. -/
theorem test_decode_vcvt : standsFor 0xA348 0x8801A073 (.vcvt ⟨0, 9, 17, 0, 0, true, 5, 115⟩) ∧
    standsFor 0xA348 0x8801A08D (.vcvts ⟨0, 9, 17, 0, 0, true, 5, 13⟩) ∧
    standsFor 0xA348 0x8801A144 (.vqblk ⟨0, 9, 17, 0, 0, true, 5, 68⟩) := by decide +kernel

/-- VCMP. -/
theorem test_decode_vcmp : standsFor 0xA430 0x8D81A000 (.veq ⟨0, 6, 17, 22, 0, true, 5, 0⟩) ∧ standsFor 0xA431 0x8D81A088 (.vne ⟨1, 6, 17, 22, 0, true, 5, 8⟩) ∧
    standsFor 0xA432 0x8D81A110 (.vlt ⟨2, 6, 17, 22, 0, true, 5, 16⟩) ∧ standsFor 0xA430 0x8D81A198 (.vle ⟨0, 6, 17, 22, 0, true, 5, 24⟩) ∧
    standsFor 0xA431 0x8D81A220 (.vgt ⟨1, 6, 17, 22, 0, true, 5, 32⟩) ∧ standsFor 0xA432 0x8D81A2A8 (.vge ⟨2, 6, 17, 22, 0, true, 5, 40⟩) ∧
    standsFor 0xA430 0x8D81A360 (.vfeq ⟨0, 6, 17, 22, 0, true, 5, 96⟩) ∧
    standsFor 0xA431 0x8D81A3E8 (.vflt ⟨1, 6, 17, 22, 0, true, 5, 104⟩) ∧
    standsFor 0xA432 0x8D81A450 (.vfle ⟨2, 6, 17, 22, 0, true, 5, 80⟩) ∧
    standsFor 0xA430 0x8D81A4D8 (.vfunord ⟨0, 6, 17, 22, 0, true, 5, 88⟩) := by decide +kernel

/-- VMOV. -/
theorem test_decode_vmov : standsFor 0xA548 0x8801A000 (.vmv ⟨0, 9, 17, 0, 0, true, 5, 0⟩) ∧ standsFor 0xA548 0x8801A080 (.vmvs ⟨0, 9, 17, 0, 0, true, 5, 0⟩) ∧
    standsFor 0xA548 0x8D800100 (.vmvx ⟨0, 9, 17, 22, 0, false, 0, 0⟩) ∧
    standsFor 0xA548 0x8D81A180 (.vmerge ⟨0, 9, 17, 22, 0, true, 5, 0⟩) ∧ standsFor 0xA548 0x1A200 (.vidx ⟨0, 9, 0, 0, 0, true, 5, 0⟩) ∧
    standsFor 0xA548 0x41A2FE (.vsow ⟨0, 9, 0, 1, 0, true, 5, 126⟩) := by decide +kernel

/-- VRED. -/
theorem test_decode_vred : standsFor 0xA648 0x8801A068 (.vredsum ⟨0, 9, 17, 0, 0, true, 5, 104⟩) ∧
    standsFor 0xA649 0x8D81A0E9 (.vredosum ⟨1, 9, 17, 22, 0, true, 5, 105⟩) ∧
    standsFor 0xA648 0x8801A16A (.vredmin ⟨0, 9, 17, 0, 0, true, 5, 106⟩) ∧
    standsFor 0xA649 0x8D81A1EB (.vredmax ⟨1, 9, 17, 22, 0, true, 5, 107⟩) ∧
    standsFor 0xA648 0x8801A220 (.vredand ⟨0, 9, 17, 0, 0, true, 5, 32⟩) ∧
    standsFor 0xA649 0x8D81A2A8 (.vredor ⟨1, 9, 17, 22, 0, true, 5, 40⟩) ∧
    standsFor 0xA648 0x8801A368 (.vscansum ⟨0, 9, 17, 0, 0, true, 5, 104⟩) ∧
    standsFor 0xA649 0x8D81A3E9 (.vscanmin ⟨1, 9, 17, 22, 0, true, 5, 105⟩) ∧
    standsFor 0xA648 0x8801A46A (.vscanmax ⟨0, 9, 17, 0, 0, true, 5, 106⟩) := by decide +kernel

/-- VPERM. -/
theorem test_decode_vperm : standsFor 0xA748 0x8D81A000 (.vgather ⟨0, 9, 17, 22, 0, true, 5, 0⟩) ∧
    standsFor 0xA749 0x8D81A080 (.vslideup ⟨1, 9, 17, 22, 0, true, 5, 0⟩) ∧
    standsFor 0xA74A 0x8D81A100 (.vslidedn ⟨2, 9, 17, 22, 0, true, 5, 0⟩) ∧
    standsFor 0xA748 0x8801A180 (.vcompress ⟨0, 9, 17, 0, 0, true, 5, 0⟩) ∧ standsFor 0xA748 0x1A200 (.vcidx ⟨0, 9, 0, 0, 0, true, 5, 0⟩) := by decide +kernel

/-- MASK. -/
theorem test_decode_mask : standsFor 0x6830 0x1940 (.mand 6 3 5) ∧ standsFor 0x6830 0x1941 (.mor 6 3 5) ∧ standsFor 0x6830 0x1942 (.mxor 6 3 5) ∧
    standsFor 0x6830 0x1943 (.mandn 6 3 5) ∧ standsFor 0x6830 0x1804 (.mnot 6 3) ∧ standsFor 0x6848 0x1805 (.mpopc 9 3) ∧
    standsFor 0x6848 0x1806 (.mfirst 9 3) ∧ standsFor 0x6830 0x8807 (.mfromv 6 17) ∧ standsFor 0x6830 0x8808 (.msetvl 6 17) ∧
    standsFor 0x6830 0x9 (.mclr 6) := by decide +kernel

/-- VLD and VST. -/
theorem test_decode_vmem : standsFor 0xA948 0x8801A060 (.vld ⟨0, 9, 17, 0, 0, true, 5, 96⟩) ∧ standsFor 0xA949 0x8D81A060 (.vlds ⟨1, 9, 17, 22, 0, true, 5, 96⟩) ∧
    standsFor 0xA94A 0x8D81A060 (.vldx ⟨2, 9, 17, 22, 0, true, 5, 96⟩) ∧
    standsFor 0xA94B 0x8801A3E0 (.vldseg ⟨3, 9, 17, 0, 0, true, 5, 96⟩ 7) ∧
    standsFor 0xAA48 0x8801A060 (.vst ⟨0, 9, 17, 0, 0, true, 5, 96⟩) ∧ standsFor 0xAA49 0x8D81A060 (.vsts ⟨1, 9, 17, 22, 0, true, 5, 96⟩) ∧
    standsFor 0xAA4A 0x8D81A060 (.vstx ⟨2, 9, 17, 22, 0, true, 5, 96⟩) ∧
    standsFor 0xAA4B 0x8801A3E0 (.vstseg ⟨3, 9, 17, 0, 0, true, 5, 96⟩ 7) ∧
    standsFor 0xA94C 0x8801A060 (.vldff ⟨4, 9, 17, 0, 0, true, 5, 96⟩) := by decide +kernel

/-- VAMO. -/
theorem test_decode_vamo : standsFor 0xAB48 0x8D99A052 (.vaadd ⟨0, 9, 17, 22, 12, true, 5, 82⟩) ∧
    standsFor 0xAB48 0x8D99A0A8 (.vamin ⟨0, 9, 17, 22, 12, true, 5, 40⟩) ∧
    standsFor 0xAB48 0x8D99A168 (.vamax ⟨0, 9, 17, 22, 12, true, 5, 104⟩) ∧
    standsFor 0xAB48 0x8D99A198 (.vaor ⟨0, 9, 17, 22, 12, true, 5, 24⟩) := by decide +kernel

/-- VXLATE. -/
theorem test_decode_vxlate : standsFor 0xAC48 0x8D8DA000 (.vxlate ⟨0, 9, 17, 22, 6, true, 5, 0⟩) ∧
    standsFor 0xAC49 0x8D8DA000 (.vxlateff ⟨1, 9, 17, 22, 6, true, 5, 0⟩) := by decide +kernel

/-- VISSUE. -/
theorem test_decode_vissue : standsFor 0xAD00 0x8801A000 (.vissue 17 0 false true 5) ∧ standsFor 0xAD00 0x880DA080 (.vissue 17 6 true true 5) := by decide +kernel

/-- VCOLL. -/
theorem test_decode_vcoll : standsFor 0xAE4E 0x8819A03C (.vallred ⟨6, 9, 17, 0, 12, true, 5, 60⟩) ∧
    standsFor 0xAE4E 0x8819A0BC (.vredscat ⟨6, 9, 17, 0, 12, true, 5, 60⟩) ∧
    standsFor 0xAE4E 0x8819A138 (.vallgath ⟨6, 9, 17, 0, 12, true, 5, 56⟩) ∧
    standsFor 0xAE4E 0x8819A1B8 (.vbcast ⟨6, 9, 17, 0, 12, true, 5, 56⟩) ∧
    standsFor 0xAE4E 0x8D99A238 (.vall2all ⟨6, 9, 17, 22, 12, true, 5, 56⟩) := by decide +kernel

/-- GRP. -/
theorem test_decode_grp : standsFor 0x6F30 0x8D80 (.gset 6 17 22) ∧ standsFor 0x6F48 0x3001 (.grank 9 6) ∧ standsFor 0x6F48 0x3002 (.gsize 9 6) := by decide +kernel

/-- MAT. -/
theorem test_decode_mat : standsFor 0xB000 0x88000070 (.mloadw 17 14) ∧ standsFor 0xB006 0x8D980080 (.mstream 6 17 22 12) ∧
    standsFor 0xB006 0x5980100 (.mzero 6 22 12) ∧ standsFor 0xB04E 0x58001E5 (.mread 6 9 22 101) ∧
    standsFor 0xB04E 0x5820180 (.mreadPair 6 9 22) ∧ standsFor 0xB006 0x8D800268 (.mwrite 6 17 22 13) := by decide +kernel

/-! ### Ill-formed terms: for each check of WellFormed, a term that it refuses -/

theorem test_wf_scalar : (Instr.shli 1 2 64).wf = false ∧ (Instr.shri 1 2 (-1)).wf = false ∧ (Instr.srai 1 2 0x400000).wf = false ∧
    (Instr.ffma 1 2 3 4 (11 * 8)).wf = false ∧ (Instr.ffms 1 2 3 4 (12 * 8 + 6)).wf = false ∧ (Instr.fnma 1 2 3 4 (14 * 8)).wf = false ∧
    (Instr.aadd true 1 2 3 0).wf = false ∧ (Instr.acas true 1 2 3 4 4).wf = false ∧ (Instr.aswp false 1 2 3 7).wf = false := by decide

/-- R81: depth, length, ranges, s0 and the pointer among the counts. -/
theorem test_wf_loop : (Instr.loop 6 10 4 6 2).wf = false ∧ (Instr.loop 0 10 4 6 0).wf = false ∧ (Instr.loop 0 10 4 6 33).wf = false ∧
    (Instr.loop 1 31 4 6 2).wf = false ∧ (Instr.loop 1 10 4 31 2).wf = false ∧ (Instr.loop 0 0 4 6 2).wf = false ∧
    (Instr.loop 1 10 11 6 2).wf = false ∧ (Instr.loop 1 30 4 30 32).wf = true := by decide

theorem test_wf_agents : (Instr.spawn 1 2 3 4 0 5).wf = false ∧ (Instr.spawn 1 2 3 4 5 0).wf = false ∧ (Instr.await 0 15).wf = false ∧
    (Instr.awaitw 0 15).wf = false ∧ (Instr.awaitg 0 15).wf = false ∧ (Instr.awaitb 16 15).wf = false ∧ (Instr.park 0 15).wf = false ∧
    (Instr.cpyb 1 2 false 1).wf = false ∧ (Instr.cpyvg 1 2 3 8).wf = false ∧ (Instr.xbswap 1 2 3 8 0 0).wf = false ∧
    (Instr.xbswap 1 2 3 4 0 12).wf = false ∧ (Instr.xbswap 1 2 3 4 0 (5 * 16)).wf = false ∧ (Instr.gset 8 1 2).wf = false ∧
    (Instr.grank 1 8).wf = false ∧ (Instr.gsize 1 9).wf = false := by decide

theorem test_wf_vector : (Instr.setvl 1 2 3 12).wf = false ∧ (Instr.setvl 1 2 0 15).wf = false ∧ (Instr.setvlhw 1 2 3 3 4).wf = false ∧
    (Instr.vadd ⟨0, 1, 2, 3, 0, false, 1, 0x10⟩).wf = false ∧ (Instr.vadd ⟨3, 1, 2, 3, 0, false, 0, 0x10⟩).wf = false ∧
    (Instr.vsub ⟨0, 1, 2, 3, 1, false, 0, 0x10⟩).wf = false ∧ (Instr.vmul ⟨0, 1, 2, 3, 0, false, 0, 0x40⟩).wf = false ∧
    (Instr.vand ⟨0, 1, 2, 3, 0, false, 0, 0x11⟩).wf = false ∧ (Instr.vfadd ⟨0, 1, 2, 3, 0, false, 0, 0x49⟩).wf = false ∧
    (Instr.vfdiv ⟨0, 1, 2, 3, 0, false, 0, 0x71⟩).wf = false ∧ (Instr.vfsqrt ⟨0, 1, 2, 3, 0, false, 0, 0x61⟩).wf = false ∧
    (Instr.vffma ⟨1, 1, 2, 3, 4, true, 1, 0x61⟩).wf = false ∧ (Instr.vffma ⟨0, 1, 2, 3, 4, true, 1, 0x66⟩).wf = false ∧
    (Instr.vffma ⟨0, 1, 2, 3, 4, false, 1, 0x61⟩).wf = false ∧ (Instr.vfrcps ⟨0, 1, 2, 3, 4, false, 0, 0x61⟩).wf = false := by decide

theorem test_wf_moves : (Instr.vcvt ⟨0, 1, 2, 0, 0, false, 0, 0x78⟩).wf = false ∧ (Instr.vcvts ⟨0, 1, 2, 0, 0, false, 0, 0x66⟩).wf = false ∧
    (Instr.vqblk ⟨0, 7, 2, 0, 0, false, 0, 0x40⟩).wf = false ∧ (Instr.vqblk ⟨0, 1, 2, 0, 0, false, 0, 0x48⟩).wf = false ∧
    (Instr.veq ⟨0, 8, 2, 3, 0, false, 0, 0x10⟩).wf = false ∧ (Instr.veq ⟨0, 1, 2, 3, 0, false, 0, 0x60⟩).wf = false ∧
    (Instr.vflt ⟨0, 1, 2, 3, 0, false, 0, 0x10⟩).wf = false ∧ (Instr.vflt ⟨0, 1, 2, 3, 0, false, 0, 0x70⟩).wf = false ∧
    (Instr.vmv ⟨0, 1, 2, 3, 0, false, 0, 0⟩).wf = false ∧ (Instr.vmvs ⟨0, 1, 2, 0, 0, false, 0, 1⟩).wf = false ∧
    (Instr.vmvx ⟨0, 1, 2, 3, 0, true, 0, 0⟩).wf = false ∧ (Instr.vmerge ⟨0, 1, 2, 3, 0, false, 0, 0⟩).wf = false ∧
    (Instr.vidx ⟨0, 1, 2, 0, 0, false, 0, 0⟩).wf = false ∧ (Instr.vsow ⟨0, 1, 0, 2, 0, false, 0, 0⟩).wf = false ∧
    (Instr.vsow ⟨0, 1, 0, 1, 0, false, 0, 127⟩).wf = false := by decide

theorem test_wf_reductions : (Instr.vredsum ⟨0, 1, 2, 3, 0, false, 0, 0x61⟩).wf = false ∧ (Instr.vredsum ⟨2, 1, 2, 3, 0, false, 0, 0x61⟩).wf = false ∧
    (Instr.vredmin ⟨0, 1, 2, 0, 0, false, 0, 0x71⟩).wf = false ∧ (Instr.vredand ⟨0, 1, 2, 0, 0, false, 0, 0x61⟩).wf = false ∧
    (Instr.vscansum ⟨0, 1, 2, 0, 0, false, 0, 0x11⟩).wf = false ∧ (Instr.vgather ⟨1, 1, 2, 3, 0, false, 0, 0⟩).wf = false ∧
    (Instr.vslideup ⟨0, 1, 2, 3, 0, false, 0, 0⟩).wf = false ∧ (Instr.vcompress ⟨0, 1, 2, 1, 0, false, 0, 0⟩).wf = false ∧
    (Instr.vcidx ⟨0, 1, 2, 0, 0, false, 0, 0⟩).wf = false ∧ (Instr.mand 8 1 2).wf = false ∧ (Instr.mnot 1 8).wf = false ∧
    (Instr.mpopc 9 8).wf = false ∧ (Instr.mfromv 8 1).wf = false ∧ (Instr.msetvl 8 1).wf = false ∧ (Instr.mclr 8).wf = false := by decide

theorem test_wf_memory : (Instr.vld ⟨1, 1, 2, 0, 0, false, 0, 0x60⟩).wf = false ∧ (Instr.vld ⟨0, 1, 2, 1, 0, false, 0, 0x60⟩).wf = false ∧
    (Instr.vld ⟨0, 1, 2, 0, 0, false, 0, 0x78⟩).wf = false ∧ (Instr.vlds ⟨1, 1, 2, 3, 0, false, 0, 0x40⟩).wf = false ∧
    (Instr.vldseg ⟨3, 1, 2, 0, 0, false, 0, 0x60⟩ 0).wf = false ∧ (Instr.vst ⟨0, 1, 2, 0, 1, false, 0, 0x60⟩).wf = false ∧
    (Instr.vaadd ⟨0, 9, 4, 1, 2, true, 1, 0x66⟩).wf = false ∧ (Instr.vaadd ⟨0, 9, 4, 1, 2, false, 0, 0x00⟩).wf = false ∧
    (Instr.vamin ⟨0, 9, 4, 1, 2, false, 0, 0x61⟩).wf = false ∧ (Instr.vaor ⟨0, 9, 4, 1, 2, false, 0, 0x60⟩).wf = false ∧
    (Instr.vxlate ⟨1, 6, 4, 5, 3, false, 0, 0⟩).wf = false ∧ (Instr.vxlateff ⟨1, 6, 4, 5, 8, false, 0, 0⟩).wf = false ∧
    (Instr.vissue 1 1 false false 0).wf = false ∧ (Instr.vissue 1 8 true false 0).wf = false ∧ (Instr.vissue 1 2 true true 2).wf = false := by decide

theorem test_wf_units : (Instr.vallred ⟨2, 3, 1, 0, 6, false, 0, 0x65⟩).wf = false ∧ (Instr.vallred ⟨2, 3, 1, 1, 6, false, 0, 0x60⟩).wf = false ∧
    (Instr.vredscat ⟨2, 3, 1, 0, 6, false, 0, 0x64⟩).wf = false ∧ (Instr.vallgath ⟨2, 3, 1, 0, 6, false, 0, 0x61⟩).wf = false ∧
    (Instr.vbcast ⟨2, 3, 1, 0, 6, false, 0, 0x78⟩).wf = false ∧ (Instr.vall2all ⟨2, 3, 1, 1, 6, false, 0, 0x60⟩).wf = false ∧
    (Instr.mloadw 1 13).wf = false ∧ (Instr.mread 1 2 3 0x40).wf = false ∧ (Instr.mread 1 2 3 0x79).wf = false ∧ (Instr.mwrite 1 2 3 9).wf = false := by decide

/-- Events that name what does not exist: core 4194304, cluster 524288, package 4096, slot 256, granary group 1024. -/
theorem test_wf_events : (Instr.coreResume 4194304).wf = false ∧ (Instr.jobStart 524288).wf = false ∧ (Instr.soleGrant 4096).wf = false ∧
    (Instr.waiterWake ⟨0, 256, 0⟩).wf = false ∧ (Instr.dieReset 16384).wf = false ∧ (Instr.elementGroupArrival 0 0 1024).wf = false ∧
    (Instr.patrolScrub (2 ^ 58)).wf = false ∧ (Instr.granaryRefresh 0 512).wf = false ∧ (Instr.parkResume 0 65536).wf = false := by decide

/-! ### Encodings that are no instruction (R18, R77, R83 and the table of variants below it) -/

theorem test_decode_rejects : (decode 0xA208 0x10C92449).isOk = false ∧ (decode 0xA208 0x10C92466).isOk = false ∧
    (decode 0xA209 0x10C92461).isOk = false ∧ (decode 0xA208 0x10C82461).isOk = false ∧ (decode 0xB108 0x10C92461).isOk = false ∧
    (decode 0xA208 0x10C92459).isOk = true ∧ (decode 0x4231 0x2840).isOk = false ∧ (decode 0x4230 0x285B).isOk = false ∧
    (decode 0x8230 0x2840).isOk = false ∧ (decode 0x0006 0).isOk = false ∧ (decode 0x0008 0).isOk = false ∧ (decode 0x1700 0).isOk = false := by
  decide +kernel

/-! ### Results: worked examples of the spec, or values worked out by hand from its rules -/

/-- base with values in s10, s11 and s12. -/
def three (x y z : Word) : State := withCo fun c => ((c.wr 10 x).wr 11 y).wr 12 z

/-- What s9 holds after an instruction. -/
def s9 (i : Instr) (s : State) : Word := (after i s).co.rd 9

/-- R86's own examples, and the wrap of a sum. -/
theorem test_alu : s9 (.div 9 10 11) (three 0x8000000000000000 (-1) 0) = 0x8000000000000000 ∧ s9 (.divn 9 10 11) (three 7 0 0) = 0xFFFFFFFFFFFFFFFF ∧
    s9 (.add 9 10 11) (three 0xFFFFFFFFFFFFFFFF 2 0) = 1 ∧ s9 (.mulh 9 10 11) (three (-1) 2 0) = 0xFFFFFFFFFFFFFFFF ∧
    s9 (.mulhn 9 10 11) (three (-1) 2 0) = 1 ∧ s9 (.sra 9 10 11) (three 0x8000000000000000 63 0) = 0xFFFFFFFFFFFFFFFF ∧
    s9 (.rol 9 10 11) (three 0x8000000000000001 1 0) = 3 ∧ s9 (.clz 9 10) (three 0 0 0) = 64 ∧ s9 (.rem 9 10 11) (three (-7) 2 0) = -1 ∧
    s9 (.addi 9 10 (-4)) (three 3 0 0) = 0xFFFFFFFFFFFFFFFF ∧ s9 (.liW 9 0x80000000) base = 0xFFFFFFFF80000000 := by decide +kernel

/-- R91 and R50: 2.5 to an integer goes to the even 2 and sets NX; 2^31 in f32 saturates or not by the width of 64 bits. -/
theorem test_fpu : s9 (.fcvtfi true 9 10) (three 0x4004000000000000 0 0) = 2 ∧
    (after (.fcvtfi true 9 10) (three 0x4004000000000000 0 0)).co.fmode.extractLsb' 0 64 ≠ base.co.fmode.extractLsb' 0 64 ∧
    s9 (.fadd true 9 10 11) (three 0x3FF0000000000000 0x4000000000000000 0) = 0x4008000000000000 ∧
    s9 (.fadd false 9 10 11) (three 0x3F800000 0x33800000 0) = 0x3F800000 ∧ s9 (.fdiv true 9 10 11) (three 0x3FF0000000000000 0 0) = 0x7FF0000000000000 ∧
    s9 (.ffma 9 10 11 12 0x61) (three 0x40000000 0x40400000 0x3F800000) = 0x40E00000 ∧
    s9 (.feq true 9 10 11) (three 0x8000000000000000 0 0) = 1 ∧ s9 (.fsqrt true 9 10) (three 0x4010000000000000 0 0) = 0x4000000000000000 := by
  decide +kernel

/-- R94: a byte stored and loaded back with and without its sign, in a chunk that has not committed. -/
theorem test_store_load : s9 (.ldb 9 1 3) (after (.stb 10 1 3) (three 0x1FE 0 0)) = 0xFFFFFFFFFFFFFFFE ∧
    s9 (.ldnb 9 1 3) (after (.stb 10 1 3) (three 0x1FE 0 0)) = 0xFE ∧
    s9 (.ldh 9 1 2) (after (.stb 10 1 3) (three 0x1FE 0 0)) = 0xFFFFFFFFFFFFFE00 := by decide +kernel

/-- R109: TRAP saves its successor and the code and goes to the handler in kernel mode. -/
theorem test_trap : (after (.trap 0xBEEF) (withCo fun c => { c with tvec := c.pc })).co.pc = base.co.pc ∧
    (after (.trap 0xBEEF) (withCo fun c => { c with tvec := c.pc })).co.epc = base.co.next ∧
    (after (.trap 0xBEEF) (withCo fun c => { c with tvec := c.pc })).co.etval = 0xBEEF ∧
    (after (.trap 0xBEEF) (withCo fun c => { c with tvec := c.pc })).co.mode = .kernel := by decide +kernel

/-- A vector instruction and its execution out of the queue. -/
def ran (i : Instr) (s : State) : State := after (.vectorQueueExecute 0) (after i s)

/-- A vector state with element 0 of v1, v2 and v3. -/
def elems (t : BitVec 4) (w x y z : Nat) : State :=
  let s := vec t 0 1
  s.setCo (((s.co.setElem 1 w 0 x).setElem 2 w 0 y).setElem 3 w 0 z)

/-- R120's examples: VSADD.i8 of 100 and 100, VSSUB.n8 of 3 and 5, VSHL.i8 by 9. -/
theorem test_vint : (ran (.vsadd ⟨0, 4, 1, 2, 0, false, 0, 0x00⟩) (elems 0 8 100 100 0)).co.elem 4 8 0 = 127 ∧
    (ran (.vssub ⟨0, 4, 1, 2, 0, false, 0, 0x20⟩) (elems 4 8 3 5 0)).co.elem 4 8 0 = 0 ∧
    (ran (.vshl ⟨2, 4, 1, 9, 0, false, 0, 0x00⟩) (elems 0 8 0x81 0 0)).co.elem 4 8 0 = 2 := by decide +kernel

/-- R122's example: VFFMA.c32 of 1 + 2i, 3 + 4i and 0.5 - 1i. -/
theorem test_vffma_c32 : (ran (.vffma ⟨0, 4, 1, 2, 3, false, 0, 0x71⟩)
    (elems 14 64 0x400000003F800000 0x4080000040400000 0xBF8000003F000000)).co.elem 4 64 0 = 0x41100000C0900000 := by decide +kernel

/-- R123's examples: -300 from i16 to i8, and 7.0 from f32 to f4, which gives 6, whose code is 0b111
by R40 (the example prints another code; DEDUCED, log 46). -/
theorem test_vcvt : (ran (.vcvts ⟨0, 4, 1, 0, 0, false, 0, 0x00⟩) (elems 1 16 0xFED4 0 0)).co.elem 4 8 0 = 0x80 ∧
    (ran (.vcvt ⟨0, 4, 1, 0, 0, false, 0, 0x00⟩) (elems 1 16 0xFED4 0 0)).co.elem 4 8 0 = 0xD4 ∧
    (ran (.vcvt ⟨0, 4, 1, 0, 0, false, 0, 0x41⟩) (elems 12 32 0x40E00000 0 0)).co.elem 4 4 0 = 7 := by decide +kernel

/-- R112's example: SETVL.f32 s5, s4, 16 with 10,000 gives 4,096. -/
theorem test_setvl : (after (.setvl 9 10 1 12) (three 10000 0 0)).co.rd 9 = 4096 := by decide +kernel

/-- R44's example: the scale and the first four elements of a block. -/
theorem test_qblk : (qblkScale (([0x40A00000, 0xC0200000, 0x3E99999A, 0x3E800000] ++ List.replicate 12 0).map (fmtOf 12).value)).1 = 127 ∧
    ([0x40A00000, 0xC0200000, 0x3E99999A, 0x3E800000].map fun x => (qblkElem 127 rne ((fmtOf 12).value x)).1) = [6, 12, 1, 0] := by decide +kernel

/-- R63's step on R64's example: 2^100 - 32 rounds to 2^100 in a80. -/
theorem test_a80 : a80Of (.fin false (2 ^ 95 - 1) 5) = a80Of (.fin false 1 100) := by decide +kernel

/-- R55's example: 1 + 2^-9 to bf16 under SR, with one bit more or less than the draw needs. -/
theorem test_sr : ((fmtOf 10).round ⟨5, 0xD000000000000000⟩ (.val ((fmtOf 12).value 0x3F804000)) 0).1 = 0x3F81 ∧
    ((fmtOf 10).round ⟨5, 0xBFFFFFFFFFFFFFFF⟩ (.val ((fmtOf 12).value 0x3F804000)) 0).1 = 0x3F80 := by decide +kernel

/-! ### Steps: the word is placed where step fetches, and step runs it -/

/-- What step makes of a state. -/
def stepped (s : State) : State := match step s with
  | .next t => t
  | _ => s

theorem test_step_li : (stepped (State.reset.withFetchWord 48 0x89ABCDEF8448)).co.rd 9 = 0xFFFFFFFF89ABCDEF ∧
    (stepped (State.reset.withFetchWord 48 0x89ABCDEF8448)).co.pc.toNat % 64 = 2 := by decide +kernel

theorem test_step_nop : (State.reset.withFetchWord 16 0).co.pc ≠ (stepped (State.reset.withFetchWord 16 0)).co.pc := by decide +kernel

/-- Major 0x3F is unassigned: the step takes the trap, and without a handler that halts the coroutine. -/
theorem test_step_illegal : (State.reset.withFetchWord 16 0x3F00).cur.running = some 0 ∧
    (stepped (State.reset.withFetchWord 16 0x3F00)).cur.running = none := by decide +kernel

end Sys2Proof.Tests
end

section
/-!
PROOFS. Scans (R61): what a vector instruction does where nothing holds it (R115, R118), and the running value of a scan.
-/

namespace Sys2Proof.Machine.VectorLaws

/-! ### Elements written (R49, R69) -/

/-- An element written changes nothing but the bytes of the vector registers. -/
theorem setElem_eq (c : Co) (d w i x : Nat) : ∃ v, c.setElem d w i x = { c with v := v } := by
  unfold Co.setElem
  split <;> exact ⟨_, rfl⟩

/-- Elements written change nothing but the bytes of the vector registers. -/
theorem foldl_setElem_eq (c : Co) (d w : Nat) (xs : List (Nat × Nat × BitVec 5)) :
    ∃ v, xs.foldl (fun c x => c.setElem d w x.1 x.2.1) c = { c with v := v } := by
  induction xs generalizing c with
  | nil => exact ⟨c.v, rfl⟩
  | cons x xs ih =>
    obtain ⟨v, hv⟩ := setElem_eq c d w x.1 x.2.1
    rw [List.foldl_cons, hv]
    exact ih { c with v := v }

/-- What an entry captures is not what it writes, where it writes elements and their flags. -/
theorem afterEntry_vput (c : Co) (d w : Nat) (xs : List (Nat × Nat × BitVec 5)) : c.afterEntry (c.vput d w xs) = c.vput d w xs := by
  obtain ⟨v, hv⟩ := foldl_setElem_eq c d w xs
  unfold Co.vput
  rw [hv]
  rfl

/-! ### Active elements (R115) -/

/-- Outside a VISSUE word the elements that an instruction works on are the active ones. -/
theorem active_none (c : Co) (o : V32) : c.active none o = Claims.act c o := by
  unfold Co.active Co.every Claims.act
  rw [List.filter_filter]
  refine List.filter_congr fun i _ => ?_
  cases o.masked <;> simp [Co.within, Bool.and_comm]

/-! ### A vector instruction that executes as it issues (R115, R118) -/

/-- Where nothing that a vector instruction could touch is pending, it touches nothing pending. -/
theorem holds_vectorFree {s : State} (h : s.VectorFree) (touch : Unit → List (Nat × Nat)) (masks : List (BitVec 3)) :
    s.ext.holds touch masks = false := by
  obtain ⟨-, hv, hc, hm, -⟩ := h
  simp [Ext.holds, hv, hc, hm]

/-- Where no register holds an error, an instruction reads its vector and mask registers. -/
theorem vread_of_no_error {s : State} (h : s.ext.badRegs = []) (vs : List Reg) (ms : List (BitVec 3)) (k : Out) : s.vread vs ms k = k := by
  have e : s.ext.badVector vs ms = none := by
    unfold Ext.badVector
    rw [List.find?_eq_none.2 (by simp [h]), List.find?_eq_none.2 (by simp [h])]
  simp [State.vread, e]

/-- A vector instruction that nothing holds completes with what its meaning gives. -/
theorem vector_of_vectorFree {s : State} {m : VSem} (i : Instr) (a b : Reg) (h : s.VectorFree) (hf : s.Free m.rs m.dst.toList)
    (hok : m.ok s.co = true) :
    s.vector i a b m = .next (s.setCo (Claims.vregs s.co m.dst (m.run (s.rd a) (s.rd b) none s.co))).retire := by
  have hh : m.held (s.co.entry i a b) s.co s.ext = false := holds_vectorFree h _ _
  obtain ⟨hq, -, -, -, hb⟩ := h
  simp only [State.vector, hok, Laws.issue_free hf, vread_of_no_error hb, hq, hh, List.isEmpty_nil, Bool.not_true, Bool.not_false,
    Bool.and_self, Bool.false_eq_true, if_false, if_true]
  cases m.dst <;> rfl

/-! ### The running value of a scan (R61) -/

/-- A scan's results stand at the elements that it is given, in their order. -/
theorem map_fst_scanValues (op : Red) (t : Nat) (rnd : Nat → Rnd) (v : Nat) (xs : List (Nat × Nat)) :
    (scanValues op t rnd v xs).map Prod.fst = xs.map Prod.fst := by
  induction xs generalizing v with
  | nil => rfl
  | cons x xs ih => simp [scanValues, ih]

/-- Result k of a scan is its operator on the result before it, or on the initial value, and element k. -/
theorem getElem?_scanValues (op : Red) (t : Nat) (rnd : Nat → Rnd) (v : Nat) (xs : List (Nat × Nat)) (k : Nat) :
    ((scanValues op t rnd v xs).map Prod.snd)[k]? = xs[k]?.map fun x =>
      op.apply t (rnd x.1) (if k = 0 then v else (((scanValues op t rnd v xs).map Prod.snd)[k - 1]?.getD (0, 0)).1) x.2 := by
  induction xs generalizing v k with
  | nil => rfl
  | cons x xs ih =>
    cases k with
    | zero => rfl
    | succ k =>
      rw [scanValues, List.map_cons, List.getElem?_cons_succ, ih]
      cases k <;> rfl

/-- The registers that a scan names exist where those that its form needs do. -/
theorem vscan_ok {s : State} {o : V32} (op : Red) (hx : o.x = 0 ∨ o.x = 1)
    (h : Claims.vok s o ([o.d, o.a] ++ if o.x = 1 then [o.b] else [])) : (vscan o op).ok s.co = true := by
  obtain ⟨hw, hr⟩ := h
  have hs : o.sameWidth s.co = true := beq_iff_eq.2 hw
  rcases hx with hx | hx <;> simpa [vscan, vred, hs, Co.regsOk, redSources, hx] using hr

/-- What a scan writes: at each active element the running value that starts at element 0 of v[B], or at the identity. -/
def scanned (s : State) (o : V32) (op : Red) : List (Nat × Nat × BitVec 5) :=
  scanValues op o.t.toNat (fun i => s.co.rnd o.rm.toNat i)
    (if o.x = 1 then s.co.elem o.b.toNat s.co.width 0 else op.identity o.t.toNat)
    ((Claims.act s.co o).map fun i => (i, s.co.elem o.a.toNat s.co.width i))

/-- A scan that nothing holds writes its running values and nothing else. -/
theorem vector_vscan {s : State} {o : V32} (i : Instr) (op : Red) (hf : s.VectorFree) (hx : o.x = 0 ∨ o.x = 1)
    (h : Claims.vok s o ([o.d, o.a] ++ if o.x = 1 then [o.b] else [])) :
    s.vector i o.a o.b (vscan o op) = .next (Claims.vdone s (s.co.vput o.d.toNat s.co.width (scanned s o op))) := by
  have hinit : (redInit o s.co).getD (op.identity o.t.toNat) =
      if o.x = 1 then s.co.elem o.b.toNat s.co.width 0 else op.identity o.t.toNat := by
    unfold redInit
    rw [h.1]
    split <;> rfl
  have hrun : (vscan o op).run (s.rd o.a) (s.rd o.b) none s.co = (s.co.vput o.d.toNat s.co.width (scanned s o op), 0) := by
    simp only [vscan, vred, redElems, hinit, active_none, h.1, scanned]
  rw [vector_of_vectorFree i o.a o.b hf (Laws.free_nil s) (vscan_ok op hx h), hrun]
  change Host.Outcome.next (State.retire (s.setCo { s.co.afterEntry (s.co.vput _ _ _) with vstart := 0 })) = _
  rw [afterEntry_vput]
  rfl

/-- A scan writes at the active elements, in ascending order. -/
theorem map_fst_scanned (s : State) (o : V32) (op : Red) : (scanned s o op).map Prod.fst = Claims.act s.co o := by
  simp [scanned, map_fst_scanValues, Function.comp_def]

/-- The running value at active element k, from the one before it or the initial value (R61). -/
theorem getElem?_scanned {s : State} {o : V32} {k i : Nat} (op : Red) (h : (Claims.act s.co o)[k]? = some i) :
    ((scanned s o op).map Prod.snd)[k]? = some (op.apply o.t.toNat (s.co.rnd o.rm.toNat i)
      (if k = 0 then (if o.x = 1 then s.co.elem o.b.toNat s.co.width 0 else op.identity o.t.toNat)
        else (((scanned s o op).map Prod.snd)[k - 1]?.getD (0, 0)).1)
      (s.co.elem o.a.toNat s.co.width i)) := by
  have hk : ((Claims.act s.co o).map fun i => (i, s.co.elem o.a.toNat s.co.width i))[k]? = some (i, s.co.elem o.a.toNat s.co.width i) := by
    simp [h]
  exact (getElem?_scanValues ..).trans (congrArg _ hk)

/-- Each scan executes as the vector instruction of its operator. -/
theorem exec_scan {x : (V32 → Instr) × Red} (hx : x ∈ [(Instr.vscansum, Red.sum), (.vscanmin, .min), (.vscanmax, .max)]) (o : V32) (s : State) :
    exec (x.1 o) s = s.vector (x.1 o) o.a o.b (vscan o x.2) := by
  simp only [List.mem_cons, List.not_mem_nil, or_false] at hx
  rcases hx with rfl | rfl | rfl <;> rfl

/-- Settles O33: a scan writes the list of its running values, whose recurrence is that of R61. -/
theorem scansAreInclusive : Obligations.ScansAreInclusive := by
  unfold Obligations.ScansAreInclusive
  intro x hx o s hf hox hok
  refine ⟨(scanned s o x.2).map Prod.snd, ?_, ?_, fun k i y hi hy => ?_⟩
  · rw [exec_scan hx, vector_vscan _ _ hf hox hok, ← List.zip_of_prod (map_fst_scanned s o x.2) rfl]
  · simpa using congrArg List.length (map_fst_scanned s o x.2)
  · exact Option.some.inj (hy.symm.trans (getElem?_scanned x.2 hi))

end Sys2Proof.Machine.VectorLaws
end

section
/-!
PROOFS. FCLASS (R92): the class of a code by its sign, exponent and fraction, and the one bit that names it.
-/

namespace Sys2Proof.Machine.FclassLaws

/-! ### A code's value by its sign, exponent and fraction (R38, R39) -/

/-- A bit field of width 1 is set where its bit is. -/
theorem bits_one_beq_one (x n : Nat) : (bits x n 1 == 1) = x.testBit n := by
  rw [bits, Nat.pow_one, Nat.testBit_eq_decide_div_mod_eq, beq_eq_decide]

/-- A bit field of width 1 is clear where its bit is. -/
theorem bits_one_beq_zero (x n : Nat) : (bits x n 1 == 0) = !x.testBit n := by
  rw [← bits_one_beq_one, bits, Nat.pow_one]
  rcases Nat.mod_two_eq_zero_or_one (x / 2 ^ n) with h | h <;> rw [h] <;> rfl

/-- A bit field that starts at bit 0 is a remainder. -/
theorem bits_zero (x w : Nat) : bits x 0 w = x % 2 ^ w := by
  rw [bits, Nat.pow_zero, Nat.div_one]

/-- In a format with infinities the greatest exponent is that of the infinities and the NaNs, where the first bit of the
fraction tells a quiet NaN; exponent 0 is that of the zeros and the subnormal numbers; the others are of normal numbers. -/
theorem value_of_inf {f : Fmt} (hf : f.inf = true) (x : Nat) :
    f.value x =
      if x / 2 ^ f.fb % 2 ^ f.eb = 2 ^ f.eb - 1 then
        if x % 2 ^ f.fb = 0 then .inf (x.testBit (f.eb + f.fb)) else .nan (!(x % 2 ^ f.fb).testBit (f.fb - 1))
      else if x / 2 ^ f.fb % 2 ^ f.eb = 0 then .fin (x.testBit (f.eb + f.fb)) (x % 2 ^ f.fb) (f.emin - f.fb)
      else .fin (x.testBit (f.eb + f.fb)) (2 ^ f.fb + x % 2 ^ f.fb) (((x / 2 ^ f.fb % 2 ^ f.eb : Nat) : Int) - f.bias - f.fb) := by
  simp only [Fmt.value, hf, bits_one_beq_one, bits_one_beq_zero, bits_zero, Bool.true_and, beq_iff_eq, Bool.not_true, Bool.false_and,
    Bool.false_eq_true, if_false]
  rfl

/-! ### The class mask (R92) -/

/-- The mask of a code's class has the one bit of its class set. -/
theorem fclassMask_eq_two_pow {f : Fmt} (hf : f.inf = true) (x : Nat) : fclassMask f x = 2 ^ Claims.classBit f.eb f.fb x := by
  have hlt : x % 2 ^ f.fb < 2 ^ f.fb := Nat.mod_lt _ (Nat.two_pow_pos _)
  rw [fclassMask, value_of_inf hf, Claims.classBit]
  by_cases hmax : x / 2 ^ f.fb % 2 ^ f.eb = 2 ^ f.eb - 1
  · -- infinities and NaNs
    rw [if_pos hmax, if_pos hmax]
    by_cases hm : x % 2 ^ f.fb = 0
    · rw [if_pos hm, if_pos hm]; cases x.testBit (f.eb + f.fb) <;> rfl
    · rw [if_neg hm, if_neg hm]; cases (x % 2 ^ f.fb).testBit (f.fb - 1) <;> rfl
  · rw [if_neg hmax, if_neg hmax]
    by_cases h0 : x / 2 ^ f.fb % 2 ^ f.eb = 0
    · -- zeros and subnormal numbers
      rw [if_pos h0, if_pos h0]
      by_cases hm : x % 2 ^ f.fb = 0 <;> cases x.testBit (f.eb + f.fb) <;> simp [hm, hlt]
    · -- normal numbers, whose leading 1 is at bit fb
      rw [if_neg h0, if_neg h0]
      cases x.testBit (f.eb + f.fb) <;> simp

/-- The class mask as a word. -/
theorem ofNat_fclassMask {f : Fmt} (hf : f.inf = true) (x : Nat) :
    BitVec.ofNat 64 (fclassMask f x) = (1 : Word) <<< Claims.classBit f.eb f.fb x := by
  rw [fclassMask_eq_two_pow hf]
  exact BitVec.eq_of_toNat_eq (by simp [Nat.shiftLeft_eq])

/-! ### FCLASS -/

/-- No flag leaves the flags as they are. -/
theorem orFlags_zero (c : Co) : c.orFlags 0 = c := by simp [Co.orFlags]

/-- FCLASS writes its source's class mask, and goes on. -/
theorem exec_fclass (dbl : Bool) {d a : Reg} {s : State} (h : s.Free [a] [d]) :
    exec (.fclass dbl d a) s = .next (s.wr d (BitVec.ofNat 64
      (fclassMask (fpuFmt dbl) (if dbl then (s.rd a).toNat else (s.rd a).toNat % 2 ^ 32)))).retire := by
  change execFclass dbl d a s = _
  rw [execFclass, Laws.fcompute_free h, orFlags_zero]
  rfl

/-- Settles O4: the source's class mask is the one bit of its class in f64 and in f32. -/
theorem fclassSetsOneBit : Obligations.FclassSetsOneBit := by
  unfold Obligations.FclassSetsOneBit
  intro d a s h
  constructor
  · rw [exec_fclass true h, ofNat_fclassMask rfl]; rfl
  · rw [exec_fclass false h, ofNat_fclassMask rfl]; rfl

end Sys2Proof.Machine.FclassLaws
end
